-- ==== Sys2Proof/Word.lean ====
section
/-! DEFINITION. The word types of the station: bytes, piece tags and readings of the station clock.
Their arithmetic is Lean's own on bit vectors; everything computed from them stands in Machine/. -/

namespace Sys2Proof

/-- One byte of a frame or of the configuration image. -/
abbrev Byte := BitVec 8

/-- A piece tag, 0..255; 0 means unbound (00 5.7). -/
abbrev Tag := BitVec 8

/-- A reading of the station clock, the free-running 32-bit microsecond counter (00 5.4). -/
abbrev Instant := BitVec 32

end Sys2Proof
end

