-- ==== Sys2Proof/Syntax.lean ====
section
/-! DEFINITION. The commands of the station: one constructor per row of spec/opcode_table.json.
The table gives no operand fields; the operands are read from the rules (log entry 7). Every command carries
`now`, by itself or in its first operand: the reading of the station clock at which it is taken (log entry 1). -/

namespace Sys2Proof

/-- The kinds of frame (R154). -/
inductive FrameKind
  | headOn | tailOff | cascade | alarm | status
  | setupFields | setupClose | setupCancel | setupClear
  | release | restart | drill
  deriving DecidableEq, Repr

/-- How the reset pin came to be low (R177). -/
inductive ResetPulse
  /-- power-on, which is a pin reset -/
  | powerOn
  /-- a low pulse of the given length in µs -/
  | low (us : Nat)
  deriving DecidableEq, Repr

/-- One field id and its 16-bit value, as a SETUP-FIELDS frame carries two of (R94). -/
structure FieldPair where
  id : Byte
  value : BitVec 16
  deriving DecidableEq, Repr

/-- A start bit on the line: when it begins (R145, R153), and the bits after it as this station will read them, true for recessive (R141,
R146; log entry 45). -/
structure StartBit where
  now : Instant
  frame : List Bool
  deriving DecidableEq, Repr

/-- A lost bit: the bits on the line to its end, the start bit and the lost bit among them, and the bits of the winning frame after
them as this station will read them (R141, R147; log entry 45). -/
structure LostBit where
  bits : Nat
  rest : List Bool
  deriving DecidableEq, Repr

/-- The end of a frame's clean reject slot (R150), which is the frame-end capture (R152), with the level of the last marker bit
before it, true for recessive (R143, R171; log entry 46). -/
structure FrameEnd where
  now : Instant
  marker : Bool
  deriving DecidableEq, Repr

/-- The two bits of a reject slot, true for recessive (R149, R150). -/
structure RejectSlot where
  first : Bool
  second : Bool
  deriving DecidableEq, Repr

/-- The end of a frame's reject slot and the slot as read there (R150). -/
structure RejectedEnd where
  now : Instant
  slot : RejectSlot
  deriving DecidableEq, Repr

/-- What this receiver has read of a frame in error (R149; log entries 20 and 49).
- `bits`: the bits from the first precedence bit on, at most to the last marker bit as reckoned, true for recessive
- `slot`: the levels the rest of the line gives the two bits of the reject slot as reckoned; they count once it is reached
- `past`: for how many of the last bits, the slot's among them once it is reached, the frame has been over on the line: since
  the end of its own reject slot, the last bit of a break, or the last bit of a sender that stopped (R141, R145, R148) -/
structure ReadFrame where
  bits : List Bool
  slot : RejectSlot
  past : Nat
  deriving DecidableEq, Repr

/-- The recessive bits in a row that make a line idle (R145): those counted to idle, and those directly before them that the
count leaves out, the end of a frame (R171; log entry 46). -/
structure QuietLine where
  bits : Nat
  before : Nat
  deriving DecidableEq, Repr

/-- The commands. A `sender` is the frame's 5-bit sender number (ch. 8, the frame table). -/
inductive Instr
  /-- PIN_RESET (R177) -/
  | pinReset (now : Instant) (pulse : ResetPulse)
  /-- RESET_RELEASE (R176): the strap pins as they stand at the release -/
  | resetRelease (now : Instant) (positionCode : BitVec 3) (rateCode : BitVec 2) (commissioning : Bool)
  /-- CONFIG_READ_DONE (R179): the bytes the configuration memory gave -/
  | configReadDone (now : Instant) (image : List Byte)
  /-- CONFIG_READ_TIMEOUT (R178) -/
  | configReadTimeout (now : Instant)
  /-- FORCE_SAMPLE (R113): a roll force in kN -/
  | forceSample (now : Instant) (force : Nat)
  /-- FORCE_STALE (R116) -/
  | forceStale (now : Instant)
  /-- SPEED_FEEDBACK_SAMPLE (R121): a roll speed in mm/s -/
  | speedFeedbackSample (now : Instant) (speed : BitVec 16)
  /-- SPEED_FEEDBACK_STALE (R121) -/
  | speedFeedbackStale (now : Instant)
  /-- ANGLE_SAMPLE (R121): a looper angle in 0.01° -/
  | angleSample (now : Instant) (angle : Nat)
  /-- ANGLE_STALE (R121) -/
  | angleStale (now : Instant)
  /-- HOT_METAL_EDGE (R119) -/
  | hotMetalEdge (now : Instant)
  /-- TRACKING_EXPIRY (R44) -/
  | trackingExpiry (now : Instant)
  /-- LOOPER_PERIOD_EXPIRY (R59) -/
  | looperPeriodExpiry (now : Instant)
  /-- RAISE_TIMEOUT (R60) -/
  | raiseTimeout (now : Instant)
  /-- LOWER_TIMEOUT (R65) -/
  | lowerTimeout (now : Instant)
  /-- SPEED_PERIOD_EXPIRY (R83) -/
  | speedPeriodExpiry (now : Instant)
  /-- VIEW_STALE (R85) -/
  | viewStale (now : Instant)
  /-- IMPACT_END (R78) -/
  | impactEnd (now : Instant)
  /-- CASCADE_FRAME_PERIOD (R87) -/
  | cascadeFramePeriod (now : Instant)
  /-- STATUS_FRAME_PERIOD (R181) -/
  | statusFramePeriod (now : Instant)
  /-- NOTICE_AGE_TICK (R153) -/
  | noticeAgeTick (now : Instant)
  /-- HOLD_LINE_ACTIVE (R128) -/
  | holdLineActive (now : Instant)
  /-- HOLD_LINE_RELEASED (R128) -/
  | holdLineReleased (now : Instant)
  /-- RELEASE_QUALIFIED (R131) -/
  | releaseQualified (now : Instant)
  /-- UPSTREAM_HEAD_ON (R31) -/
  | upstreamHeadOn (fin : FrameEnd) (sender : BitVec 5) (tag : Tag) (age : BitVec 16)
  /-- DOWNSTREAM_HEAD_ON (R14) -/
  | downstreamHeadOn (fin : FrameEnd) (sender : BitVec 5) (tag : Tag) (age : BitVec 16)
  /-- UPSTREAM_TAIL_OFF (R31) -/
  | upstreamTailOff (fin : FrameEnd) (sender : BitVec 5) (tag : Tag) (age : BitVec 16)
  /-- DOWNSTREAM_TAIL_OFF (R15) -/
  | downstreamTailOff (fin : FrameEnd) (sender : BitVec 5) (tag : Tag) (age : BitVec 16)
  /-- CASCADE_DELIVERED (R84): tag, factor, roll speed and flags as on the line (R155) -/
  | cascadeDelivered (fin : FrameEnd) (sender : BitVec 5) (tag : Tag) (factor : BitVec 24) (speed : BitVec 16) (flags : Byte)
  /-- ALARM_RECEIVED (R139) -/
  | alarmReceived (fin : FrameEnd) (sender : BitVec 5)
  /-- STATUS_RECEIVED (R167) -/
  | statusReceived (fin : FrameEnd) (sender : BitVec 5)
  /-- SETUP_FIELDS (R94) -/
  | setupFields (fin : FrameEnd) (sender : BitVec 5) (first second : FieldPair)
  /-- SETUP_CLOSE (R97) -/
  | setupClose (fin : FrameEnd) (sender : BitVec 5) (tag : Tag)
  /-- SETUP_CANCEL (R101) -/
  | setupCancel (fin : FrameEnd) (sender : BitVec 5) (tag : Tag)
  /-- SETUP_CLEAR (R102) -/
  | setupClear (fin : FrameEnd) (sender : BitVec 5)
  /-- RELEASE (R130) -/
  | release (fin : FrameEnd) (sender : BitVec 5)
  /-- RESTART (R180) -/
  | restart (fin : FrameEnd) (sender : BitVec 5) (target : Byte)
  /-- DRILL (R123) -/
  | drill (fin : FrameEnd) (sender : BitVec 5) (target kind : Byte)
  /-- MALFORMED_FRAME (R154): the four fields of the first two content octets -/
  | malformedFrame (fin : FrameEnd) (precedence : BitVec 3) (sender : BitVec 5) (kindCode length : BitVec 4)
  /-- RECEIVE_ERROR (R149): what this receiver has read of the frame -/
  | receiveError (now : Instant) (read : ReadFrame)
  /-- FRAME_REJECTED (R150) -/
  | frameRejected (fin : RejectedEnd)
  /-- LINE_IDLE (R145): the consecutive recessive bits read so far -/
  | lineIdle (now : Instant) (quiet : QuietLine)
  /-- CONTEST_START (R146): `now` is the beginning of the start bit (R145, R153) -/
  | contestStart (now : Instant)
  /-- ARBITRATION_LOST (R147) -/
  | arbitrationLost (now : Instant) (lost : LostBit)
  /-- BIT_ERROR (R148): the bits sent to the end of the bit in error, the start bit and the bit in error among them -/
  | bitError (now : Instant) (bits : Nat)
  /-- ATTEMPT_FAILED (R151) -/
  | attemptFailed (now : Instant)
  /-- ATTEMPT_SUCCEEDED (R151) -/
  | attemptSucceeded (now : Instant)
  /-- JOINING_END (R171) -/
  | joiningEnd (now : Instant)
  /-- OFF_LINK_RECOVERY (R174) -/
  | offLinkRecovery (now : Instant)
  /-- HOT_METAL_READING (R119): high (true) or low -/
  | hotMetalReading (now : Instant) (high : Bool)
  /-- HOLD_LINE_CHANGE (R128): the level the rest of the line gives the wire, active (true) or released (log entry 11) -/
  | holdLineChange (now : Instant) (active : Bool)
  /-- FRAME_START (R146) -/
  | frameStart (start : StartBit)
  /-- FRAME_IGNORED (R165) -/
  | frameIgnored (fin : FrameEnd) (sender : BitVec 5) (kind : FrameKind)
  /-- STRAY_FRAME (R167) -/
  | strayFrame (fin : FrameEnd) (sender : BitVec 5) (kind : FrameKind)
  /-- OFF_LINK_IDLE_SPAN (R174) -/
  | offLinkIdleSpan (now : Instant)
  deriving DecidableEq, Repr

/-- The reading of the station clock at which a command is taken (log entry 1). -/
def Instr.now : Instr → Instant
  | .configReadTimeout t | .forceStale t | .speedFeedbackStale t | .angleStale t | .hotMetalEdge t
  | .trackingExpiry t | .looperPeriodExpiry t | .raiseTimeout t | .lowerTimeout t | .speedPeriodExpiry t
  | .viewStale t | .impactEnd t | .cascadeFramePeriod t | .statusFramePeriod t | .noticeAgeTick t
  | .holdLineActive t | .holdLineReleased t | .releaseQualified t | .contestStart t
  | .attemptFailed t | .attemptSucceeded t | .joiningEnd t | .offLinkRecovery t
  | .offLinkIdleSpan t | .pinReset t _ | .resetRelease t _ _ _ | .configReadDone t _ | .forceSample t _
  | .speedFeedbackSample t _ | .angleSample t _ | .receiveError t _ | .lineIdle t _
  | .arbitrationLost t _ | .bitError t _ | .hotMetalReading t _ | .holdLineChange t _ => t
  | .upstreamHeadOn fin _ _ _ | .downstreamHeadOn fin _ _ _ | .upstreamTailOff fin _ _ _ | .downstreamTailOff fin _ _ _
  | .cascadeDelivered fin _ _ _ _ _ | .alarmReceived fin _ | .statusReceived fin _ | .setupFields fin _ _ _
  | .setupClose fin _ _ | .setupCancel fin _ _ | .setupClear fin _ | .release fin _ | .restart fin _ _ | .drill fin _ _ _
  | .malformedFrame fin _ _ _ _ | .frameIgnored fin _ _ | .strayFrame fin _ _ => fin.now
  | .frameRejected fin => fin.now
  | .frameStart start => start.now

end Sys2Proof
end

