-- ==== Sys2Proof/Machine/State.lean ====
section
/-! DEFINITION. The state of one station, block by block as the manual has it (00 3), the two reason types, and the
state after reset. Data only: what acts on it stands in the other files of Machine/. -/

namespace Sys2Proof.Machine

/-- Why the machine stops. The spec names no such case (INVENTORY.md, Faults), so there is no reason. -/
inductive Fault
  deriving DecidableEq, Repr

/-- Why a command has no meaning. -/
inductive Refusal
  /-- exec's arm for a command not modelled yet; no arm of this model uses it. Safe: nothing is claimed of a refused command. -/
  | notModelled (mnemonic : String)
  deriving DecidableEq, Repr

/-! ### Configuration Loader (ch. 11) and the schedule values it carries (R90) -/

/-- Where start-up stands (R177, R179). -/
inductive Phase
  /-- the reset pin is held low -/
  | held
  /-- released, the configuration image is being read -/
  | reading
  /-- the link has been given to the Link Controller -/
  | running
  deriving DecidableEq, Repr

/-- The value fields of a schedule record and of the staging record (R90). -/
structure Values where
  /-- V_top, mm/s -/
  vTop : Nat
  /-- h[0..8], µm -/
  h : Vector Nat 9
  /-- f[1..8], ‰; f[k] stands at index k - 1 -/
  f : Vector Nat 8
  /-- θ_ref[1..7], 0.01°; θ_ref[k] stands at index k - 1 -/
  theta : Vector Nat 7
  kp : Nat
  ki : Nat
  /-- P, ppm -/
  boost : Nat
  /-- T, ms -/
  impactTime : Nat
  /-- L_low, mm -/
  lLow : Nat
  deriving DecidableEq, Repr

/-- The role the acceptance table gives (R165). -/
inductive Role
  | closed | upstream | downstream | setup
  deriving DecidableEq, Repr

/-- One acceptance entry (R165). -/
structure AcceptEntry where
  bits : BitVec 12
  mask : BitVec 12
  role : Role
  deriving DecidableEq, Repr

/-- The loaded configuration image (R178). `accept` holds the entries in force: the image's, or the defaults of R166. -/
structure Image where
  n : Nat
  dUp : Nat
  dEntry : Nat
  vMin : Nat
  vMax : Nat
  fOff : Nat
  fOn : Nat
  thetaRest : Nat
  band : Nat
  rateUp : Nat
  rateDown : Nat
  raiseTimeout : Nat
  lowerTimeout : Nat
  tMax : Nat
  iMax : Nat
  window : Nat
  accept : List AcceptEntry
  defaults : Values
  deriving DecidableEq, Repr

/-- Straps, image and start-up (R176 to R179). -/
structure Loader where
  phase : Phase
  /-- clock reading at the release of reset, from which the 20 ms of R178 run -/
  releasedAt : Instant
  positionCode : BitVec 3
  rateCode : BitVec 2
  commissioning : Bool
  image : Image
  deriving DecidableEq, Repr

/-! ### Stand Sequencer (ch. 1) -/

/-- The stand states (R1). -/
inductive StandState
  | unconfigured | empty | awaiting | threading | coupled | tailing | hold
  deriving DecidableEq, Repr

/-- The impact remainder (R5). -/
structure Impact where
  /-- ms -/
  elapsed : Nat
  /-- P, ppm -/
  boost : Nat
  deriving DecidableEq, Repr

/-- The bite record (R3). -/
structure Bite where
  tag : Tag
  unannounced : Bool
  early : Bool
  substituted : Bool
  predicted : Bool
  partner : Option Tag
  impact : Option Impact
  deriving DecidableEq, Repr

structure Sequencer where
  stand : StandState
  bite : Option Bite
  deriving DecidableEq, Repr

/-! ### Tracking Unit (ch. 2) -/

inductive MarkerKind
  | head | tail
  deriving DecidableEq, Repr

/-- A marker (R29). -/
structure Marker where
  kind : MarkerKind
  tag : Tag
  /-- µm still to travel; negative once past the stand -/
  distance : Int
  windowOpen : Bool
  deriving DecidableEq, Repr

structure Tracking where
  /-- front first -/
  markers : List Marker
  /-- R37 -/
  entryTag : Tag
  deriving DecidableEq, Repr

/-! ### Looper Controller (ch. 3) -/

/-- The operation a STALLED looper did not finish (R52). -/
inductive LooperOp
  | raise | lower
  deriving DecidableEq, Repr

/-- The looper states (3.1), each with the items that are present in it only (R52): the operation timer in looper
periods, the operation tag, the stalled operation. -/
inductive LooperState
  | none
  | parked
  | raising (timer : Nat) (tag : Tag)
  | tension
  | lowering (timer : Nat) (tag : Tag)
  | stalled (op : LooperOp) (tag : Tag)
  deriving DecidableEq, Repr

structure Looper where
  state : LooperState
  /-- θ_cmd, 0.01° -/
  command : Nat
  /-- I, ppm -/
  integral : Int
  /-- t, ppm -/
  trim : Int
  deriving DecidableEq, Repr

/-! ### Cascade Unit (ch. 4) -/

/-- A neighbour view (R84). -/
structure View where
  tag : Tag
  factor : Int
  speed : Nat
  flags : Byte
  capture : Option Instant
  stale : Bool
  deriving DecidableEq, Repr

/-- R84, the never-heard values. -/
def View.neverHeard : View :=
  { tag := 0, factor := 0, speed := 0, flags := 0, capture := none, stale := true }

structure Cascade where
  /-- c, ppm -/
  factor : Int
  limited : Bool
  /-- ref, mm/s -/
  reference : Nat
  clamped : Bool
  upView : View
  downView : View
  /-- where the present cascade frame period began; absent while it does not run (R89) -/
  periodFrom : Option Instant
  deriving DecidableEq, Repr

/-! ### Schedule Store (ch. 5) -/

inductive RecordState
  | waiting | entered
  deriving DecidableEq, Repr

/-- A record of the schedule table (R90). -/
structure Record where
  tag : Tag
  values : Values
  state : RecordState
  base : Nat
  deriving DecidableEq, Repr

structure Store where
  staging : Values
  /-- oldest first (R91) -/
  table : List Record
  deriving DecidableEq, Repr

/-! ### Stand Sensing (ch. 6) -/

/-- A qualifying run (R111). -/
structure Run where
  length : Nat
  first : Instant
  deriving DecidableEq, Repr

/-- The hot-metal candidate run (R119, R120). -/
structure HotRun where
  level : Bool
  count : Nat
  first : Instant
  deriving DecidableEq, Repr

/-- The phases of the SUPPRESS-LOAD-ON drill (R124). -/
inductive DrillPhase
  | waiting | blocking
  deriving DecidableEq, Repr

structure Sensing where
  forceStale : Bool
  /-- last force arrival: the silence timer runs from it (R110) -/
  forceAt : Instant
  /-- detector state: LOADED or UNLOADED (R111) -/
  loaded : Bool
  run : Option Run
  /-- debounced level, HIGH or LOW; absent until the first nine agreeing readings (R120) -/
  hotLevel : Option Bool
  hotRun : Option HotRun
  /-- the angle holder's value; "no value" before the first sample (R121) -/
  angle : Option Nat
  angleStale : Bool
  angleAt : Instant
  speed : Nat
  speedStale : Bool
  speedAt : Instant
  drill : Option DrillPhase
  deriving DecidableEq, Repr

/-! ### Hold Monitor (ch. 7) -/

structure HoldMonitor where
  /-- filtered line state: ACTIVE or RELEASED (R127) -/
  filtered : Bool
  ownDrive : Bool
  /-- release qualification timer: where it started, or absent (R127, R131) -/
  timer : Option Instant
  qualified : Bool
  /-- what the other stations and the emergency circuit give the wire (log entry 11) -/
  others : Bool
  /-- when the wire last changed level (R128) -/
  lineAt : Instant
  deriving DecidableEq, Repr

/-! ### Link Controller (ch. 8) -/

/-- The reception in progress (R141). -/
structure Reception where
  /-- the whole bits taken, the start bit among them, as they stood at `bitsAt` (log entry 19) -/
  bits : Nat
  bitsAt : Instant
  /-- the bits after the start bit, true for recessive: as the frame's start announced them (log entry 45), in place of these as
  a RECEIVE_ERROR read them; `State.takenBits` says which of them have been taken -/
  frame : List Bool
  error : Bool
  deriving DecidableEq, Repr

/-- The attempt in progress (R141), with the age and the check word worked for it (R153). -/
structure Attempt where
  slot : Fin 4
  /-- the whole bits sent, the start bit among them, as they stood at `bitsAt` (log entry 19) -/
  bits : Nat
  bitsAt : Instant
  age : BitVec 16
  check : BitVec 16
  /-- the check word is sent complemented (R157) -/
  flawed : Bool
  /-- a bit error has been found and the break is being sent (R148) -/
  breaking : Bool
  deriving DecidableEq, Repr

structure Link where
  /-- the recessive count (R145) as it stood at `recessiveAt`, from when the link is given on; `State.recessiveBits` counts on (log entry 19) -/
  recessive : Nat
  recessiveAt : Instant
  /-- recessive bits directly before those counted: the end of a frame, which the count to idle leaves out (R145, R171; log
  entry 46) -/
  carried : Nat
  idle : Bool
  /-- the station counts 18 recessive bits in place of 10 (R172) -/
  extraWait : Bool
  reception : Option Reception
  attempt : Option Attempt
  /-- the FLAW-FRAME arming (R156) as it stood at the last command that looks at it; `State.flawStillArmed` follows the bits sent
  (log entry 34) -/
  flawArmed : Bool
  /-- the last frame-end capture (R152) -/
  capture : Instant
  /-- the station drove the reject slot of the last frame it received (R149) -/
  rejectDriven : Bool
  deriving DecidableEq, Repr

/-! ### Transmit Queue (ch. 9) -/

/-- The alarm kinds (R136). -/
inductive AlarmKind
  | threadMiss | unannouncedLoad | looperStall | parkFault | sensorLost
  deriving DecidableEq, Repr

/-- A frame this station sends, with its content as queued; a notice keeps its event instant (R158). -/
inductive TxFrame
  | headOn (tag : Tag) (event : Instant)
  | tailOff (tag : Tag) (event : Instant)
  | cascade (tag : Tag) (factor : Int) (speed : Nat) (flags : Byte)
  | alarm (kind : AlarmKind) (previous : Option AlarmKind) (tag : Tag) (detail : BitVec 16)
  | status (data : Vector Byte 8)
  deriving DecidableEq, Repr

/-- An occupied transmit slot (R158). The queue instant is `queuedAt` with `order`, its place in the order of offers. -/
structure Slot where
  frame : TxFrame
  queuedAt : Instant
  order : Nat
  attempts : Nat
  inTransmission : Bool
  cleared : Bool
  saturated : Bool
  deriving DecidableEq, Repr

/-- The four slots; `none` is a free slot (R158). -/
abbrev Slots := Vector (Option Slot) 4

structure TransmitQueue where
  slots : Slots
  /-- the place the next offer takes in the order of offers -/
  nextOrder : Nat
  deriving DecidableEq, Repr

/-! ### Acceptance Table and Error Confinement (ch. 9, 10) -/

/-- The link states (R170). -/
inductive LinkState
  | joining | active | warned | muted | offLink
  deriving DecidableEq, Repr

structure ErrorConfinement where
  /-- TEC -/
  txErrors : Nat
  /-- REC -/
  rxErrors : Nat
  link : LinkState
  /-- the recessive bits JOINING waits for (R171) as they stood at `joinAt`; `State.joinBits` counts on (log entry 19) -/
  joinBits : Nat
  joinAt : Instant
  /-- the bit count within the present idle span (R174) as it stood at `spanAt`; `State.spanBits` counts on -/
  spanBits : Nat
  spanAt : Instant
  spans : Nat
  /-- when the station last left JOINING or OFF-LINK, in which it drives no reject slot, until the next start bit it receives
  (R170; log entry 52) -/
  silentTo : Option Instant
  dropped : Nat
  stray : Nat
  deriving DecidableEq, Repr

/-! ### Status Reporter (ch. 11) -/

/-- The sixteen sticky flags, in the order of bytes 3 and 4 (R181, R182). -/
inductive StickyFlag
  | early | unannounced | substituted | tagMismatch | shortPiece | lateLower | tailOverdue | strayHead
  | trackFull | scheduleFull | fieldAdjusted | fieldRefused | closeRefused | limitedSeen | clampedSeen | drillFired
  deriving DecidableEq, Repr

/-- The last setting of a sticky flag: its instant (R182), and its place among the offers (log entry 33). -/
structure Mark where
  instant : Instant
  order : Nat
  deriving DecidableEq, Repr

structure Reporter where
  /-- one place per flag, in the order of `StickyFlag`; `none` is clear -/
  sticky : Vector (Option Mark) 16
  /-- R137; absent is code 0 -/
  lastAlarm : Option AlarmKind
  /-- where the present status frame period began; absent while it does not run (R181) -/
  periodFrom : Option Instant
  deriving DecidableEq, Repr

/-! ### The station -/

/-- The state of the station and the queue of commands waiting for it. -/
structure State where
  /-- commands waiting, front first -/
  pending : List Instr
  /-- the station clock (00 5.4) -/
  clock : Instant
  /-- free values drawn so far (the model's own; log entry 13) -/
  draws : Nat
  ldr : Loader
  seq : Sequencer
  trk : Tracking
  lp : Looper
  cas : Cascade
  store : Store
  sens : Sensing
  hold : HoldMonitor
  link : Link
  txq : TransmitQueue
  ec : ErrorConfinement
  rep : Reporter
  deriving DecidableEq, Repr

/-! ### After reset -/

/-- No value field is used before the defaults are loaded (R92); zeros, log entry 10. -/
def Values.zero : Values :=
  { vTop := 0, h := #v[0, 0, 0, 0, 0, 0, 0, 0, 0], f := #v[0, 0, 0, 0, 0, 0, 0, 0], theta := #v[0, 0, 0, 0, 0, 0, 0],
    kp := 0, ki := 0, boost := 0, impactTime := 0, lLow := 0 }

/-- No item of the image is used before a good image is read (R2, R53, R111); zeros, log entry 10. -/
def Image.zero : Image :=
  { n := 0, dUp := 0, dEntry := 0, vMin := 0, vMax := 0, fOff := 0, fOn := 0, thetaRest := 0, band := 0, rateUp := 0,
    rateDown := 0, raiseTimeout := 0, lowerTimeout := 0, tMax := 0, iMax := 0, window := 0, accept := [],
    defaults := Values.zero }

/-- The station right after a pin reset or power-on, with the reset pin still low (R177). -/
def State.reset : State :=
  { pending := []
    clock := 0
    draws := 0
    ldr := { phase := .held, releasedAt := 0, positionCode := 0, rateCode := 0, commissioning := false,
             image := Image.zero }
    seq := { stand := .unconfigured, bite := none }
    trk := { markers := [], entryTag := 0 }
    lp := { state := .parked, command := 0, integral := 0, trim := 0 }
    cas := { factor := 0, limited := false, reference := 0, clamped := false, upView := View.neverHeard,
             downView := View.neverHeard, periodFrom := none }
    store := { staging := Values.zero, table := [] }
    sens := { forceStale := true, forceAt := 0, loaded := false, run := none, hotLevel := none, hotRun := none,
              angle := none, angleStale := true, angleAt := 0, speed := 0, speedStale := true, speedAt := 0,
              drill := none }
    hold := { filtered := false, ownDrive := false, timer := some 0, qualified := false, others := false, lineAt := 0 }
    link := { recessive := 0, recessiveAt := 0, carried := 0, idle := false, extraWait := false, reception := none,
              attempt := none, flawArmed := false, capture := 0, rejectDriven := false }
    txq := { slots := #v[none, none, none, none], nextOrder := 0 }
    ec := { txErrors := 0, rxErrors := 0, link := .joining, joinBits := 0, joinAt := 0, spanBits := 0, spanAt := 0, spans := 0,
            silentTo := none, dropped := 0, stray := 0 }
    rep := { sticky := #v[none, none, none, none, none, none, none, none, none, none, none, none, none, none, none, none],
             lastAlarm := none, periodFrom := none } }

end Sys2Proof.Machine
end

