-- ==== Sys2Proof/Machine/Ops.lean ====
section
/-! DEFINITION. Arithmetic of the manual (00 5), the station's own numbers, and the named update of each part of the
state. Every meaning changes the state through these updates. -/

namespace Sys2Proof.Machine

/-- What a step or a meaning answers. -/
abbrev Answer := Host.Outcome State Fault Refusal

/-! ### Updates, one per part of the state -/

def State.setPending (s : State) (x : List Instr) : State := { s with pending := x }
def State.setClock (s : State) (x : Instant) : State := { s with clock := x }
def State.setDraws (s : State) (x : Nat) : State := { s with draws := x }
def State.setLdr (s : State) (x : Loader) : State := { s with ldr := x }
def State.setSeq (s : State) (x : Sequencer) : State := { s with seq := x }
def State.setTrk (s : State) (x : Tracking) : State := { s with trk := x }
def State.setLp (s : State) (x : Looper) : State := { s with lp := x }
def State.setCas (s : State) (x : Cascade) : State := { s with cas := x }
def State.setStore (s : State) (x : Store) : State := { s with store := x }
def State.setSens (s : State) (x : Sensing) : State := { s with sens := x }
def State.setHold (s : State) (x : HoldMonitor) : State := { s with hold := x }
def State.setLink (s : State) (x : Link) : State := { s with link := x }
def State.setTxq (s : State) (x : TransmitQueue) : State := { s with txq := x }
def State.setEc (s : State) (x : ErrorConfinement) : State := { s with ec := x }
def State.setRep (s : State) (x : Reporter) : State := { s with rep := x }

/-! ### Arithmetic -/

/-- 00 5.4: the difference of two readings of the station clock, modulo 2^32, in µs. -/
def elapsed (now start : Instant) : Nat := (now - start).toNat

/-- 00 5.2: nearest integer, ties away from zero, of the exact quotient n / d of non-negative numbers. -/
def roundNat (n d : Nat) : Nat := (2 * n + d) / (2 * d)

/-- 00 5.2: nearest integer, ties away from zero, of the exact quotient n / d. -/
def roundInt (n : Int) (d : Nat) : Int :=
  if 0 ≤ n then (roundNat n.toNat d : Int) else -(roundNat (-n).toNat d : Int)

/-- 00 5.3. -/
def clampInt (lo hi x : Int) : Int := if x < lo then lo else if hi < x then hi else x

/-- 00 5.3. -/
def clampNat (lo hi x : Nat) : Nat := if x < lo then lo else if hi < x then hi else x

/-- A count that saturates at 255 (R164, R168, R169). -/
def satAdd (x k : Nat) : Nat := if 255 < x + k then 255 else x + k

/-! ### The station's own numbers -/

/-- R176: code plus 1. -/
def State.position (s : State) : Nat := s.ldr.positionCode.toNat + 1

/-- The position as a 5-bit sender number (ch. 8). -/
def State.sender (s : State) : BitVec 5 := BitVec.ofNat 5 s.position

/-- Position 1: no upstream neighbour (00 5.6). -/
def State.atFirst (s : State) : Bool := s.position == 1

/-- Position N: no looper and no downstream neighbour (00 5.6). -/
def State.atLast (s : State) : Bool := s.position == s.ldr.image.n

/-- R140: the bit time in µs at the strapped link rate. -/
def bitTime (code : BitVec 2) : Nat :=
  match code.toNat with
  | 0 => 8
  | 1 => 4
  | 2 => 2
  | _ => 1

/-- R45: W in µm by window code. -/
def windowUm (code : Nat) : Int :=
  match code with
  | 0 => 100000
  | 1 => 200000
  | 2 => 300000
  | 3 => 500000
  | 4 => 750000
  | 5 => 1000000
  | 6 => 1500000
  | _ => 2000000

/-- W of this station, µm. -/
def State.window (s : State) : Int := windowUm s.ldr.image.window

/-- The stand states in which the bite holds a piece (R3). -/
def StandState.biting : StandState → Bool
  | .threading | .coupled | .tailing => true
  | .unconfigured | .empty | .awaiting | .hold => false

/-- R1: the code of a stand state. -/
def StandState.code : StandState → Nat
  | .unconfigured => 0
  | .empty => 1
  | .awaiting => 2
  | .threading => 3
  | .coupled => 4
  | .tailing => 5
  | .hold => 6

/-- 3.1: the code of a looper state. -/
def LooperState.code : LooperState → Nat
  | .none => 0
  | .parked => 1
  | .raising .. => 2
  | .tension => 3
  | .lowering .. => 4
  | .stalled .raise _ => 5
  | .stalled .lower _ => 6

/-- R170: the code of a link state. -/
def LinkState.code : LinkState → Nat
  | .joining => 0
  | .active => 1
  | .warned => 2
  | .muted => 3
  | .offLink => 4

/-- R136, R137: the code of an alarm kind, 0 for none. -/
def alarmCode : Option AlarmKind → BitVec 4
  | none => 0
  | some .threadMiss => 1
  | some .unannouncedLoad => 2
  | some .looperStall => 3
  | some .parkFault => 4
  | some .sensorLost => 5

/-- The tag of the piece in the bite, 0 when there is none (R87, R181). -/
def State.biteTag (s : State) : Tag :=
  match s.seq.bite with
  | some b => b.tag
  | none => 0

/-- The front head marker: the first HEAD marker in list order (1.3). -/
def frontHead (l : List Marker) : Option Marker := l.find? fun m => m.kind == .head

/-- h[k] (R90). -/
def Values.hAt (v : Values) (k : Nat) : Nat := v.h.toList.getD k 0

/-- f[k], k from 1 (R90). -/
def Values.fAt (v : Values) (k : Nat) : Nat := v.f.toList.getD (k - 1) 0

/-- θ_ref[k], k from 1 (R90). -/
def Values.thetaAt (v : Values) (k : Nat) : Nat := v.theta.toList.getD (k - 1) 0

/-- The Controller's measured angle (R67): the holder's value, θ_rest before the first sample. -/
def State.measuredAngle (s : State) : Nat := s.sens.angle.getD s.ldr.image.thetaRest

end Sys2Proof.Machine
end

