-- ==== Sys2Proof/Machine/Operands.lean ====
section
/-! DEFINITION. What comes in and goes out as bits: the frame and its fields (ch. 8), the check word, what a receiver
finds in the bits it reads, the acceptance table (ch. 9), setup fields (ch. 5) and the configuration image (ch. 11). -/

namespace Sys2Proof

/-! ### Kinds (R154) -/

/-- R154: the kind code. -/
def FrameKind.code : FrameKind → BitVec 4
  | .headOn => 1
  | .tailOff => 2
  | .cascade => 3
  | .alarm => 4
  | .status => 5
  | .setupFields => 6
  | .setupClose => 7
  | .setupCancel => 8
  | .setupClear => 9
  | .release => 10
  | .restart => 11
  | .drill => 12

/-- R154: the precedence, 0 the most urgent. -/
def FrameKind.precedence : FrameKind → BitVec 3
  | .alarm | .release => 0
  | .headOn | .tailOff => 1
  | .cascade => 2
  | .setupFields | .setupClose | .setupCancel | .setupClear | .restart | .drill => 3
  | .status => 4

/-- R154: the data length L in bytes. -/
def FrameKind.length : FrameKind → BitVec 4
  | .setupClear | .release => 0
  | .setupClose | .setupCancel | .restart => 1
  | .drill => 2
  | .headOn | .tailOff => 3
  | .alarm => 4
  | .setupFields => 6
  | .cascade => 7
  | .status => 8

/-- The kinds of R154's table. -/
def FrameKind.all : List FrameKind :=
  [.headOn, .tailOff, .cascade, .alarm, .status, .setupFields, .setupClose, .setupCancel, .setupClear, .release,
   .restart, .drill]

/-- R160: CASCADE and STATUS are the superseding kinds. -/
def FrameKind.superseding : FrameKind → Bool
  | .cascade | .status => true
  | .headOn | .tailOff | .alarm | .setupFields | .setupClose | .setupCancel | .setupClear | .release | .restart
  | .drill => false

end Sys2Proof

namespace Sys2Proof.Machine

/-- R154: a frame is malformed if its kind code is 0 or 13 to 15, or its precedence or length is not its kind's. -/
def malformed (precedence : BitVec 3) (kindCode length : BitVec 4) : Bool :=
  !(FrameKind.all.any fun k => k.code == kindCode && k.precedence == precedence && k.length == length)

/-- The kind of a frame this station sends. -/
def TxFrame.kind : TxFrame → FrameKind
  | .headOn .. => .headOn
  | .tailOff .. => .tailOff
  | .cascade .. => .cascade
  | .alarm .. => .alarm
  | .status .. => .status

/-- The event instant of a notice (R158). -/
def TxFrame.event : TxFrame → Option Instant
  | .headOn _ e | .tailOff _ e => some e
  | .cascade .. | .alarm .. | .status .. => none

/-! ### The frame as bits (R142 to R144) -/

/-- Eight flags as a byte, the first in bit 7 (R181). -/
def octet (b7 b6 b5 b4 b3 b2 b1 b0 : Bool) : Byte :=
  BitVec.ofNat 8 (128 * b7.toNat + 64 * b6.toNat + 32 * b5.toNat + 16 * b4.toNat + 8 * b3.toNat + 4 * b2.toNat +
    2 * b1.toNat + b0.toNat)

/-- R142: a 16-bit value, most significant byte first. -/
def bytesOf16 (w : BitVec 16) : List Byte := [w.extractLsb' 8 8, w.extractLsb' 0 8]

/-- R142: a 24-bit value, most significant byte first. -/
def bytesOf24 (w : BitVec 24) : List Byte := [w.extractLsb' 16 8, w.extractLsb' 8 8, w.extractLsb' 0 8]

/-- R142: a byte's bits, most significant first; true is recessive (R140). -/
def byteBits (b : Byte) : List Bool :=
  [b.getLsbD 7, b.getLsbD 6, b.getLsbD 5, b.getLsbD 4, b.getLsbD 3, b.getLsbD 2, b.getLsbD 1, b.getLsbD 0]

/-- R155: the data bytes of a frame this station sends; `age` is the attempt's (R153), used by notices. -/
def TxFrame.data (f : TxFrame) (age : BitVec 16) : List Byte :=
  match f with
  | .headOn tag _ | .tailOff tag _ => tag :: bytesOf16 age
  | .cascade tag c speed flags =>
    tag :: (bytesOf24 (BitVec.ofInt 24 c) ++ bytesOf16 (BitVec.ofNat 16 (min speed 65535)) ++ [flags])
  | .alarm kind previous tag detail => (alarmCode (some kind) ++ alarmCode previous) :: tag :: bytesOf16 detail
  | .status data => data.toList

/-- R142, R154: the content octets before the check word: precedence and sender, kind and length, data. -/
def TxFrame.content (f : TxFrame) (sender : BitVec 5) (age : BitVec 16) : List Byte :=
  (f.kind.precedence ++ sender) :: (f.kind.code ++ f.kind.length) :: f.data age

/-- R144: one step of the check register. -/
def crcBit (reg : BitVec 16) (b : Bool) : BitVec 16 :=
  if (reg.msb != b) then (reg <<< 1) ^^^ 0x1021#16 else reg <<< 1

/-- R144: the register after the bytes, from all ones, with no final inversion. -/
def crc (bytes : List Byte) : BitVec 16 := (bytes.flatMap byteBits).foldl crcBit 0xFFFF#16

/-- R143: an octet and the marker bit that follows it, the complement of the octet's last bit. -/
def octetMarked (b : Byte) : List Bool := byteBits b ++ [!b.getLsbD 0]

/-- The bits of a frame from the first precedence bit to the last marker bit, for the content octets and the check
word sent with them (R142, R143). -/
def markedBits (content : List Byte) (check : BitVec 16) : List Bool :=
  (content ++ bytesOf16 check).flatMap octetMarked

/-- The whole frame on the line: start bit, content with markers, reject slot and end (the frame table of 8.2). -/
def wireBits (content : List Byte) (check : BitVec 16) : List Bool :=
  false :: (markedBits content check ++ List.replicate 9 true)

/-- R145: the frame length in bits for a data length L. -/
def frameBits (l : Nat) : Nat := 46 + 9 * l

/-- R145: the consecutive recessive bits that make the line idle. -/
def idleBits : Nat := 10

/-- R145: the capture interval in bits for a data length L. -/
def captureBits (l : Nat) : Nat := 39 + 9 * l

/-- The place of the last bit of the check word in a frame, counting the start bit as 1: the capture interval less the
last marker bit and the reject slot (8.2, R145). -/
def checkEnd (l : Nat) : Nat := captureBits l - 3

/-- The place of the last marker bit in a frame, counting the start bit as 1: the reject slot follows it (R143, R145). -/
def lastMarker (l : Nat) : Nat := captureBits l - 2

/-- R148: the break, 8 dominant bits. -/
def breakBits : List Bool := List.replicate 8 false

/-- What a receiver finds wrong (R149). -/
inductive RxError
  | markerBit | checkMismatch
  deriving DecidableEq, Repr

/-- R149: the content octets of a frame by the second octet's length field, 9 to 15 taken as 8. -/
def reckonedOctets (second : Byte) : Nat := 4 + min 8 (second.extractLsb' 0 4).toNat

/-- The register over a frame's octets but the last two equals the last two (R144). -/
def checkMatches (octets : List Byte) : Bool :=
  bytesOf16 (crc (octets.take (octets.length - 2))) == octets.drop (octets.length - 2)

/-- R149: the octets read are all of the frame, as reckoned. -/
def lastOctet (octets : List Byte) : Bool := 2 ≤ octets.length && octets.length == reckonedOctets (octets.getD 1 0)

/-- R144, R149: the receiver's tests over the bits it reads, octet by octet: the check word when the last check bit is read,
whether or not the marker bit after it has been; the marker bit of every octet. `got` holds the octets read so far. `none` when
the frame is sound or not yet complete. -/
def receiverScan (got : List Byte) : List Bool → Option RxError
  | b7 :: b6 :: b5 :: b4 :: b3 :: b2 :: b1 :: b0 :: rest =>
    let octets := got ++ [octet b7 b6 b5 b4 b3 b2 b1 b0]
    if lastOctet octets && !checkMatches octets then some .checkMismatch
    else
      match rest with
      | m :: rest =>
        if m == b0 then some .markerBit
        else if lastOctet octets then none
        else receiverScan octets rest
      | [] => none
  | _ => none

/-- R149: the first error in a frame's bits as this receiver reads them. -/
def receiverFinds (bits : List Bool) : Option RxError := receiverScan [] bits

/-- R149: the length reckoned from the length field, the last four bits of the second octet, once they have been read; 9 to
15 are taken as 8. -/
def reckonedLength (bits : List Bool) : Option Nat :=
  match bits.drop 13 with
  | b3 :: b2 :: b1 :: b0 :: _ => some (min 8 (8 * b3.toNat + 4 * b2.toNat + 2 * b1.toNat + b0.toNat))
  | _ => none

/-- How many recessive bits these bits end with. -/
def trailingRecessive (bits : List Bool) : Nat := (bits.reverse.takeWhile id).length

/-- R145: ten recessive bits in a row stand somewhere in these bits. -/
def tenRecessive (bits : List Bool) : Bool := bits.tails.any fun rest => idleBits ≤ (rest.takeWhile id).length

/-- The two bits of a reject slot in their order. -/
def slotBits (slot : RejectSlot) : List Bool := [slot.first, slot.second]

/-- R149: the reject slot as a receiver reads it: dominant while it drives it, else as the rest of the line has it. -/
def slotRead (drives : Bool) (slot : RejectSlot) : List Bool := if drives then [false, false] else slotBits slot

/-- R143, R171: the recessive bits that end a clean frame: the two of its reject slot and, where it is recessive, the last
marker bit, which a dominant content bit precedes. -/
def cleanEnd (marker : Bool) : Nat := if marker then 3 else 2

/-- R149: a receiver that has read these bits has read the frame as it reckons it, to the last marker bit, so that only the
reject slot is left. -/
def frameRead (bits : List Bool) : Bool := (reckonedLength bits).any fun l => lastMarker l ≤ bits.length + 1

/-! ### Acceptance (R165, R166) -/

/-- R165: the 12 bits looked at, precedence in bits 11..9, sender in 8..4, kind in 3..0. -/
def acceptBits (precedence : BitVec 3) (sender : BitVec 5) (kind : BitVec 4) : BitVec 12 :=
  BitVec.ofNat 12 (precedence.toNat * 512 + sender.toNat * 16 + kind.toNat)

/-- R165: equal at every bit where the mask holds 1. -/
def AcceptEntry.matchesBits (e : AcceptEntry) (b : BitVec 12) : Bool := (b &&& e.mask) == (e.bits &&& e.mask)

/-- R165: the role of the first entry that matches; none when no entry matches. -/
def acceptRole (entries : List AcceptEntry) (b : BitVec 12) : Option Role :=
  (entries.find? fun e => e.matchesBits b).map AcceptEntry.role

/-- The role this station's table gives a well-formed frame (R154, R165). -/
def State.roleOf (s : State) (k : FrameKind) (sender : BitVec 5) : Option Role :=
  acceptRole s.ldr.image.accept (acceptBits k.precedence sender k.code)

/-- R166: the default table of the station at a position in a train of n stands. -/
def defaultAccept (position n : Nat) : List AcceptEntry :=
  [{ bits := BitVec.ofNat 12 ((position - 1) * 16), mask := 0x1F0, role := if position = 1 then .closed else .upstream },
   { bits := BitVec.ofNat 12 ((position + 1) * 16), mask := 0x1F0,
     role := if position = n then .closed else .downstream },
   { bits := 0x180, mask := 0x180, role := .setup },
   { bits := 0x000, mask := 0x000, role := .closed }]

/-- A sender numbered 24..31 (R165, R180). -/
def fromSetup (sender : BitVec 5) : Bool := 24 ≤ sender.toNat

/-! ### Setup fields (R94, R95) -/

/-- The fields of the staging record that a pair can name. -/
inductive SetupField
  | vTop | h (k : Fin 9) | f (k : Fin 8) | theta (k : Fin 7) | kp | ki | boost | impactTime | lLow
  deriving DecidableEq, Repr

/-- R94: the field of an id. -/
def fieldOfId (id : Byte) : Option SetupField :=
  let n := id.toNat
  if n = 0x01 then some .vTop
  else if hk : 0x10 ≤ n ∧ n ≤ 0x18 then some (.h ⟨n - 0x10, by omega⟩)
  else if fk : 0x21 ≤ n ∧ n ≤ 0x28 then some (.f ⟨n - 0x21, by omega⟩)
  else if tk : 0x31 ≤ n ∧ n ≤ 0x37 then some (.theta ⟨n - 0x31, by omega⟩)
  else if n = 0x40 then some .kp
  else if n = 0x41 then some .ki
  else if n = 0x42 then some .boost
  else if n = 0x43 then some .impactTime
  else if n = 0x44 then some .lLow
  else none

/-- R94: the accepted range. -/
def SetupField.low : SetupField → Nat
  | .vTop => 1000
  | .h _ | .theta _ => 500
  | .lLow => 200
  | .f _ | .kp | .ki | .boost | .impactTime => 0

/-- R94: the accepted range. -/
def SetupField.high : SetupField → Nat
  | .vTop => 25000
  | .h _ => 65000
  | .f _ => 150
  | .theta _ => 6000
  | .kp => 200
  | .ki => 50
  | .boost => 50000
  | .impactTime => 500
  | .lLow => 5000

/-- R94: an h outside its range is refused, every other field is clamped. -/
def SetupField.refuses : SetupField → Bool
  | .h _ => true
  | .vTop | .f _ | .theta _ | .kp | .ki | .boost | .impactTime | .lLow => false

/-- A value put into a field. -/
def Values.setField (v : Values) (fld : SetupField) (x : Nat) : Values :=
  match fld with
  | .vTop => { v with vTop := x }
  | .h k => { v with h := v.h.set k x }
  | .f k => { v with f := v.f.set k x }
  | .theta k => { v with theta := v.theta.set k x }
  | .kp => { v with kp := x }
  | .ki => { v with ki := x }
  | .boost => { v with boost := x }
  | .impactTime => { v with impactTime := x }
  | .lLow => { v with lLow := x }

/-- The value of a field. -/
def Values.getField (v : Values) : SetupField → Nat
  | .vTop => v.vTop
  | .h k => v.h[k]
  | .f k => v.f[k]
  | .theta k => v.theta[k]
  | .kp => v.kp
  | .ki => v.ki
  | .boost => v.boost
  | .impactTime => v.impactTime
  | .lLow => v.lLow

/-- R95: the four outcomes of a pair. -/
inductive PairOutcome
  | accepted | clamped | refused | ignored
  deriving DecidableEq, Repr

/-- R95: the outcome of a pair. -/
def pairOutcome (p : FieldPair) : PairOutcome :=
  match fieldOfId p.id with
  | none => .ignored
  | some fld =>
    if fld.low ≤ p.value.toNat ∧ p.value.toNat ≤ fld.high then .accepted
    else if fld.refuses then .refused else .clamped

/-- R94: the staging record after a pair. -/
def applyPair (v : Values) (p : FieldPair) : Values :=
  match fieldOfId p.id, pairOutcome p with
  | some fld, .accepted => v.setField fld p.value.toNat
  | some fld, .clamped => v.setField fld (clampNat fld.low fld.high p.value.toNat)
  | _, _ => v

/-- R97: h[0] > h[1] > … > h[n]. -/
def strictlyDecreasing (v : Values) (n : Nat) : Bool := (List.range n).all fun k => v.hAt (k + 1) < v.hAt k

/-! ### The configuration image (R178) -/

/-- One byte of the image. -/
def byteAt (image : List Byte) (i : Nat) : Nat := (image.getD i 0).toNat

/-- Two bytes of the image, most significant first. -/
def wordAt (image : List Byte) (i : Nat) : Nat := byteAt image i * 256 + byteAt image (i + 1)

/-- R178: the staging defaults, clamped as a SETUP-FIELDS pair would be; h is taken as it stands. -/
def imageDefaults (image : List Byte) : Values :=
  let w := wordAt image
  let c := clampNat
  { vTop := c 1000 25000 (w 49)
    h := #v[w 51, w 53, w 55, w 57, w 59, w 61, w 63, w 65, w 67]
    f := #v[c 0 150 (byteAt image 69), c 0 150 (byteAt image 70), c 0 150 (byteAt image 71), c 0 150 (byteAt image 72),
      c 0 150 (byteAt image 73), c 0 150 (byteAt image 74), c 0 150 (byteAt image 75), c 0 150 (byteAt image 76)]
    theta := #v[c 500 6000 (w 77), c 500 6000 (w 79), c 500 6000 (w 81), c 500 6000 (w 83), c 500 6000 (w 85),
      c 500 6000 (w 87), c 500 6000 (w 89)]
    kp := c 0 200 (byteAt image 91)
    ki := c 0 50 (byteAt image 92)
    boost := c 0 50000 (w 93)
    impactTime := c 0 500 (w 95)
    lLow := c 200 5000 (w 97) }

/-- R178: the role code of an acceptance entry. -/
def roleOfCode (code : Nat) : Role :=
  match code with
  | 1 => .upstream
  | 2 => .downstream
  | 3 => .setup
  | _ => .closed

/-- R178: acceptance entry k; the low 12 bits of match and mask are used. -/
def imageEntry (image : List Byte) (k : Nat) : AcceptEntry :=
  { bits := BitVec.ofNat 12 (wordAt image (29 + 5 * k)), mask := BitVec.ofNat 12 (wordAt image (31 + 5 * k)),
    role := roleOfCode (byteAt image (33 + 5 * k)) }

/-- The items of an image, for the station at a position. -/
def parseImage (position : Nat) (image : List Byte) : Image :=
  { n := byteAt image 0
    dUp := wordAt image 1
    dEntry := wordAt image 3
    vMin := wordAt image 5
    vMax := wordAt image 7
    fOff := wordAt image 9
    fOn := wordAt image 11
    thetaRest := wordAt image 13
    band := wordAt image 15
    rateUp := byteAt image 17
    rateDown := byteAt image 18
    raiseTimeout := wordAt image 19
    lowerTimeout := wordAt image 21
    tMax := wordAt image 23
    iMax := wordAt image 25
    window := byteAt image 27
    accept := if byteAt image 28 = 1 then [imageEntry image 0, imageEntry image 1, imageEntry image 2, imageEntry image 3]
      else defaultAccept position (byteAt image 0)
    defaults := imageDefaults image }

/-- x lies within lo..hi. -/
def within (lo hi x : Nat) : Bool := lo ≤ x && x ≤ hi

/-- R178: the ranges of a good image's items. -/
def imageInRange (position : Nat) (i : Image) : Bool :=
  within 2 8 i.n && position ≤ i.n &&
  (position == 1 || within 3000 8000 i.dUp) && (position != 1 || within 1000 20000 i.dEntry) &&
  i.vMin < i.vMax && i.vMax ≤ 25000 && 100 ≤ i.fOff && i.fOff < i.fOn && i.fOn ≤ 40000 &&
  i.thetaRest ≤ 3000 && within 10 300 i.band && within 1 100 i.rateUp && within 1 100 i.rateDown &&
  within 100 2000 i.raiseTimeout && within 100 2000 i.lowerTimeout && within 1000 60000 i.tMax && i.iMax ≤ i.tMax &&
  i.window ≤ 7 &&
  (i.defaults.h.toList.all fun x => within 500 65000 x) && strictlyDecreasing i.defaults i.n

/-- R178: the image is whole, its check agrees, its acceptance codes are known and its items are in range. -/
def imageGood (position : Nat) (image : List Byte) : Bool :=
  image.length == 101 && (crc (image.take 99)).toNat == wordAt image 99 && byteAt image 28 ≤ 1 &&
  ([0, 1, 2, 3].all fun k => byteAt image (33 + 5 * k) ≤ 3) && imageInRange position (parseImage position image)

end Sys2Proof.Machine
end

