-- ==== Sys2Proof/Machine/Flags.lean ====
section
/-! DEFINITION. The flags: the sticky flags (R182), the condition flags and the bytes of the STATUS frame (R181), the
CASCADE flags (R88, R155), and the outputs of the station. -/

namespace Sys2Proof.Machine

/-! ### Sticky flags (R182) -/

/-- The place of a sticky flag: 0..7 are byte 3 from bit 7 down, 8..15 byte 4 (R181). -/
def StickyFlag.place : StickyFlag → Fin 16
  | .early => 0
  | .unannounced => 1
  | .substituted => 2
  | .tagMismatch => 3
  | .shortPiece => 4
  | .lateLower => 5
  | .tailOverdue => 6
  | .strayHead => 7
  | .trackFull => 8
  | .scheduleFull => 9
  | .fieldAdjusted => 10
  | .fieldRefused => 11
  | .closeRefused => 12
  | .limitedSeen => 13
  | .clampedSeen => 14
  | .drillFired => 15

/-- Every sticky flag. -/
def StickyFlag.all : List StickyFlag :=
  [.early, .unannounced, .substituted, .tagMismatch, .shortPiece, .lateLower, .tailOverdue, .strayHead,
   .trackFull, .scheduleFull, .fieldAdjusted, .fieldRefused, .closeRefused, .limitedSeen, .clampedSeen, .drillFired]

/-- The flag's last setting, if it is set. -/
def State.stickyMark (s : State) (f : StickyFlag) : Option Mark := s.rep.sticky[f.place]

/-- The flag is set. -/
def State.stickySet (s : State) (f : StickyFlag) : Bool := (s.stickyMark f).isSome

/-- R182: an event sets the flag and renews its instant. -/
def setSticky (f : StickyFlag) (s : State) : State :=
  s.setRep { s.rep with sticky := s.rep.sticky.set f.place (some ⟨s.clock, s.txq.nextOrder⟩) }

/-- `setSticky` under a condition. -/
def setStickyIf (c : Bool) (f : StickyFlag) (s : State) : State := if c then setSticky f s else s

/-- Whether a STATUS frame's data carried the flag as set (R181). -/
def carriesFlag (data : Vector Byte 8) (f : StickyFlag) : Bool :=
  if f.place.val < 8 then data[3].getLsbD (7 - f.place.val) else data[4].getLsbD (15 - f.place.val)

/-- R182: after a STATUS frame's attempt succeeded, the flags it carried as set are cleared whose last setting came
before its offer; `order` is the frame's place among the offers. -/
def clearCarried (data : Vector Byte 8) (order : Nat) (s : State) : State :=
  StickyFlag.all.foldl (fun s f =>
    match s.stickyMark f with
    | some m => if carriesFlag data f && m.order ≤ order then
        s.setRep { s.rep with sticky := s.rep.sticky.set f.place none } else s
    | none => s) s

/-! ### Condition flags and the STATUS data (R181) -/

/-- R85: clear at position 1, where the view is not used. -/
def State.upstreamStale (s : State) : Bool := s.cas.upView.stale && !s.atFirst

/-- R85: clear at position N, where the view is not used. -/
def State.downstreamStale (s : State) : Bool := s.cas.downView.stale && !s.atLast

/-- R3: a present bite carries PREDICTED. -/
def State.predicted (s : State) : Bool :=
  match s.seq.bite with
  | some b => b.predicted
  | none => false

/-- R181: the data of a STATUS frame, every field at the moment of the offer. -/
def statusData (s : State) : Vector Byte 8 :=
  let f := s.stickySet
  #v[BitVec.ofNat 8 (s.seq.stand.code * 16 + s.lp.state.code),
     s.biteTag,
     BitVec.ofNat 8 (s.trk.markers.length * 16 + s.ec.link.code * 2 + s.hold.ownDrive.toNat),
     octet (f .early) (f .unannounced) (f .substituted) (f .tagMismatch) (f .shortPiece) (f .lateLower) (f .tailOverdue)
       (f .strayHead),
     octet (f .trackFull) (f .scheduleFull) (f .fieldAdjusted) (f .fieldRefused) (f .closeRefused) (f .limitedSeen)
       (f .clampedSeen) (f .drillFired),
     octet s.sens.forceStale s.sens.angleStale s.sens.speedStale s.upstreamStale s.downstreamStale s.predicted
       s.sens.drill.isSome s.link.flawArmed,
     BitVec.ofNat 8 s.ec.dropped,
     BitVec.ofNat 8 s.ec.stray]

/-- R88, R155: the flags byte of a CASCADE frame. -/
def cascadeFlags (s : State) : Byte :=
  BitVec.ofNat 8 (s.seq.stand.code * 32 + s.cas.limited.toNat * 16 + s.cas.clamped.toNat * 8 +
    s.downstreamStale.toNat * 4 + s.sens.speedStale.toNat * 2)

/-- R155: LIMITED is bit 4 of the flags byte. -/
def View.limited (v : View) : Bool := v.flags.getLsbD 4

/-! ### Outputs -/

/-- The mode output to the looper drive (R70). -/
inductive LooperMode
  | park | raise | tension | lower
  deriving DecidableEq, Repr

/-- R70: PARK in PARKED and NONE and while UNCONFIGURED; STALLED keeps the stalled operation's mode. -/
def State.modeOutput (s : State) : LooperMode :=
  match s.seq.stand, s.lp.state with
  | .unconfigured, _ => .park
  | _, .none | _, .parked => .park
  | _, .raising .. => .raise
  | _, .tension => .tension
  | _, .lowering .. => .lower
  | _, .stalled .raise _ => .raise
  | _, .stalled .lower _ => .lower

/-- R70: θ_cmd, or 0 while UNCONFIGURED. -/
def State.angleOutput (s : State) : Nat :=
  match s.seq.stand with
  | .unconfigured => 0
  | .empty | .awaiting | .threading | .coupled | .tailing | .hold => s.lp.command

/-- R82, R177: ref, or 0 while UNCONFIGURED (which covers the time the pin is low and the image is read). -/
def State.speedOutput (s : State) : Nat :=
  match s.seq.stand with
  | .unconfigured => 0
  | .empty | .awaiting | .threading | .coupled | .tailing | .hold => s.cas.reference

/-- R127: the wired-OR line as this station reads it, its own drive included. -/
def HoldMonitor.line (h : HoldMonitor) : Bool := h.others || h.ownDrive

end Sys2Proof.Machine
end

