-- ==== Sys2Proof/Machine/Queue.lean ====
section
/-! DEFINITION. The Transmit Queue (9.1 to 9.4), Error Confinement's counts (ch. 10), the line's idle (8.2) and the
raising of an alarm (7.5). -/

namespace Sys2Proof.Machine

/-! ### Looking at the four slots -/

/-- The places of the slots. -/
def places : List (Fin 4) := [0, 1, 2, 3]

/-- The same update of every slot. -/
def mapSlots (f : Option Slot → Option Slot) (v : Slots) : Slots := #v[f v[0], f v[1], f v[2], f v[3]]

/-- An occupied slot of which p holds. -/
def holds (p : Slot → Bool) : Option Slot → Bool
  | some x => p x
  | none => false

/-- Pending: occupied and not in transmission (R162). -/
def Slot.isPending (x : Slot) : Bool := !x.inTransmission

/-- A pending frame of a kind (R160). -/
def pendingOfKind (k : FrameKind) (x : Slot) : Bool := x.isPending && x.frame.kind == k

/-- The urgency of a slot's frame: its precedence value, lower is more urgent (R161). -/
def Slot.urgency (x : Slot) : Nat := x.frame.kind.precedence.toNat

/-- The lowest-numbered place whose slot p admits. -/
def findPlace (p : Option Slot → Bool) (v : Slots) : Option (Fin 4) := places.find? fun i => p v[i]

/-- Among the occupied slots that p admits, the one that comes before the others. -/
def pick (before : Slot → Slot → Bool) (p : Slot → Bool) (v : Slots) : Option (Fin 4 × Slot) :=
  places.foldl (fun best i =>
    match v[i] with
    | some x =>
      if p x then
        match best with
        | some (_, y) => if before x y then some (i, x) else best
        | none => some (i, x)
      else best
    | none => best) none

/-- R162: lowest precedence value first, then earliest queue instant. -/
def contendsBefore (x y : Slot) : Bool := x.urgency < y.urgency || (x.urgency == y.urgency && x.order < y.order)

/-- R161: least urgent first, then latest queue instant. -/
def displacedBefore (x y : Slot) : Bool := y.urgency < x.urgency || (x.urgency == y.urgency && y.order < x.order)

/-- R162: the frame chosen at a start bit. -/
def chooseFrame (v : Slots) : Option (Fin 4 × Slot) := pick contendsBefore Slot.isPending v

/-- A frame is pending (R146). -/
def anyPending (v : Slots) : Bool := (chooseFrame v).isSome

/-! ### Offers (R159 to R161) -/

/-- R159, R175: the link states in which frames are taken and sent. -/
def LinkState.sends : LinkState → Bool
  | .active | .warned | .muted => true
  | .joining | .offLink => false

/-- R164: the dropped-frame count rises by 1, saturating. -/
def countDropped (s : State) : State := s.setEc { s.ec with dropped := satAdd s.ec.dropped 1 }

/-- R168: the stray-frame count rises by 1, saturating. -/
def countStray (s : State) : State := s.setEc { s.ec with stray := satAdd s.ec.stray 1 }

/-- R158, R159: a frame takes a slot with a new queue instant, attempt count 0 and both marks clear. -/
def takeSlot (i : Fin 4) (f : TxFrame) (s : State) : State :=
  s.setTxq { slots := s.txq.slots.set i (some { frame := f, queuedAt := s.clock, order := s.txq.nextOrder, attempts := 0,
                                                inTransmission := false, cleared := false, saturated := false })
             nextOrder := s.txq.nextOrder + 1 }

/-- R161: an offer to a full queue drops the least urgent pending frame, or the new frame itself. -/
def offerToFull (f : TxFrame) (s : State) : State :=
  match pick displacedBefore Slot.isPending s.txq.slots with
  | some (i, x) => if f.kind.precedence.toNat < x.urgency then countDropped (takeSlot i f s) else countDropped s
  | none => countDropped s

/-- R160: the place of the pending frame that a new frame of this kind supersedes. -/
def supersededPlace (k : FrameKind) (v : Slots) : Option (Fin 4) :=
  if k.superseding then findPlace (holds (pendingOfKind k)) v else none

/-- R159: the offer of a frame. It is discarded in JOINING and OFF-LINK; else it supersedes, takes a free slot, displaces
or is dropped. -/
def offer (f : TxFrame) (s : State) : State :=
  if s.ec.link.sends then
    match supersededPlace f.kind s.txq.slots with
    | some i => takeSlot i f s
    | none =>
      match findPlace Option.isNone s.txq.slots with
      | some i => takeSlot i f s
      | none => offerToFull f s
  else s

/-- R137, R138: an alarm is raised: its frame, carrying the previous kind, is offered, and its kind is recorded whether or
not the frame is queued. -/
def raiseAlarm (k : AlarmKind) (tag : Tag) (detail : BitVec 16) (s : State) : State :=
  let s' := offer (.alarm k s.rep.lastAlarm tag detail) s
  s'.setRep { s'.rep with lastAlarm := some k }

/-! ### Clearing (R163) -/

/-- R163, hold entry: pending frames other than ALARM are freed; a frame in transmission other than an ALARM takes the
cleared mark. -/
def clearAtHold : Option Slot → Option Slot
  | some x =>
    if x.frame.kind = .alarm then some x
    else if x.inTransmission then some { x with cleared := true }
    else none
  | none => none

/-- Every slot free. -/
def freeSlots : Slots := #v[none, none, none, none]

/-! ### Link states by the counts (R169, R170) -/

/-- R170: ACTIVE, WARNED or MUTED as the counts give. -/
def linkByCounts (txErrors rxErrors : Nat) : LinkState :=
  if 128 ≤ txErrors ∨ 128 ≤ rxErrors then .muted
  else if 64 ≤ txErrors ∨ 64 ≤ rxErrors then .warned
  else .active

/-- R170: outside JOINING and OFF-LINK the state follows the counts at once. -/
def ErrorConfinement.follow (e : ErrorConfinement) : ErrorConfinement :=
  match e.link with
  | .joining | .offLink => e
  | .active | .warned | .muted => { e with link := linkByCounts e.txErrors e.rxErrors }

/-- R169: REC falls by 1, not below 0; held in OFF-LINK. -/
def ErrorConfinement.cleanReceive (e : ErrorConfinement) : ErrorConfinement :=
  match e.link with
  | .offLink => e
  | .joining | .active | .warned | .muted => { e with rxErrors := e.rxErrors - 1 }.follow

/-- R169: REC rises by 1, saturating at 255; held in OFF-LINK. -/
def ErrorConfinement.receiveError (e : ErrorConfinement) : ErrorConfinement :=
  match e.link with
  | .offLink => e
  | .joining | .active | .warned | .muted => { e with rxErrors := satAdd e.rxErrors 1 }.follow

/-- R169: TEC falls by 1, not below 0. -/
def ErrorConfinement.attemptSucceeded (e : ErrorConfinement) : ErrorConfinement :=
  match e.link with
  | .offLink => e
  | .joining | .active | .warned | .muted => { e with txErrors := e.txErrors - 1 }.follow

/-- R169, R170, R174: TEC rises by 8; the failed attempt that takes it to 200 or more makes the station OFF-LINK, with both
span counts 0 at that instant. -/
def ErrorConfinement.attemptFailed (now : Instant) (e : ErrorConfinement) : ErrorConfinement :=
  match e.link with
  | .offLink => e
  | .joining | .active | .warned | .muted =>
    if 200 ≤ satAdd e.txErrors 8 then
      { e with txErrors := satAdd e.txErrors 8, link := .offLink, spanBits := 0, spanAt := now, spans := 0 }
    else { e with txErrors := satAdd e.txErrors 8 }.follow

/-- R174: recovery: TEC and REC are set to 0 and the link state becomes ACTIVE. -/
def ErrorConfinement.recover (now : Instant) (e : ErrorConfinement) : ErrorConfinement :=
  { e with txErrors := 0, rxErrors := 0, link := .active, silentTo := some now }

/-- R174: one more idle span completed, the next begins at this instant; the 64th recovers the station. -/
def ErrorConfinement.spanDone (now : Instant) (e : ErrorConfinement) : ErrorConfinement :=
  let e := { e with spanBits := 0, spanAt := now, spans := e.spans + 1 }
  if 64 ≤ e.spans then e.recover now else e

/-! ### Attempts (R146, R151, R153, R160, R162) -/

/-- R153: the age of a notice in 10 µs units, before its bound. -/
def noticeAge (now event : Instant) : Nat := roundNat (elapsed now event) 10

/-- R153: the age has been found to reach 65,535. -/
def ageReached (now : Instant) (x : Slot) : Bool :=
  match x.frame.event with
  | some e => 65535 ≤ noticeAge now e
  | none => false

/-- R153: a pending notice is marked as saturated once its age reaches 65,535. -/
def markSaturated (now : Instant) (x : Slot) : Slot := { x with saturated := x.saturated || ageReached now x }

/-- R153: the age a contest carries; 0 for a frame that is no notice (it is not sent). -/
def attemptAge (now : Instant) (x : Slot) : BitVec 16 :=
  match x.frame.event with
  | some e => if (markSaturated now x).saturated then 65535 else BitVec.ofNat 16 (noticeAge now e)
  | none => 0

/-- R146: the line is idle for this station, and it may send. -/
def mayContest (s : State) : Bool :=
  s.ldr.phase == .running && s.ec.link.sends && s.link.idle && s.link.attempt.isNone && anyPending s.txq.slots

/-- R146, R153, R157, R162: the start bit begins, and no bit has been sent yet (R145; log entry 19): the chosen slot is marked as in transmission, and the age and the check word of
this attempt are worked, the check word complemented while the FLAW-FRAME drill is armed. R145 does not say what the recessive
count is at a start bit: it is 0 from there on (the model's choice, log entry 47). -/
def startContest (s : State) : State :=
  match chooseFrame s.txq.slots with
  | none => s
  | some (i, x) =>
    let age := attemptAge s.clock x
    let check := crc (x.frame.content s.sender age)
    let s := s.setTxq { s.txq with slots := s.txq.slots.set i (some { markSaturated s.clock x with inTransmission := true }) }
    s.setLink { s.link with
      recessive := 0, recessiveAt := s.clock, carried := 0, idle := false, reception := none, rejectDriven := false
      attempt := some { slot := i, bits := 0, bitsAt := s.clock, age := age
                        check := if s.link.flawArmed then ~~~check else check
                        flawed := s.link.flawArmed, breaking := false } }

/-- R160: a newer frame of the kind is pending in another slot. -/
def newerPending (i : Fin 4) (k : FrameKind) (v : Slots) : Bool :=
  k.superseding && (places.any fun j => j != i && holds (pendingOfKind k) v[j])

/-- R160, R162, R163: a slot in transmission whose frame was not sent: freed if cleared or if a newer frame of its kind is
pending, else back to pending. -/
def backToPending (i : Fin 4) (x : Slot) (v : Slots) : Option Slot :=
  if x.cleared || newerPending i x.frame.kind v then none else some { x with inTransmission := false }

/-- R147: a lost contest leaves the attempt count as it is. -/
def settleLost (i : Fin 4) (s : State) : State :=
  match s.txq.slots[i] with
  | some x => s.setTxq { s.txq with slots := s.txq.slots.set i (backToPending i x s.txq.slots) }
  | none => s

/-- R151, R162: a failed attempt: the cleared slot is freed; the third failure frees the slot and is counted as dropped;
else the attempt count rises and the frame is pending again or aborted. -/
def settleFailed (i : Fin 4) (s : State) : State :=
  match s.txq.slots[i] with
  | some x =>
    if x.cleared then s.setTxq { s.txq with slots := s.txq.slots.set i none }
    else if 3 ≤ x.attempts + 1 then countDropped (s.setTxq { s.txq with slots := s.txq.slots.set i none })
    else s.setTxq { s.txq with
      slots := s.txq.slots.set i (backToPending i { x with attempts := x.attempts + 1 } s.txq.slots) }
  | none => s

/-- R151, R182: a succeeded attempt frees the slot; a STATUS frame, cleared or not, clears the sticky flags it carried. -/
def settleSucceeded (i : Fin 4) (s : State) : State :=
  match s.txq.slots[i] with
  | some x =>
    let s := s.setTxq { s.txq with slots := s.txq.slots.set i none }
    match x.frame with
    | .status data => clearCarried data x.order s
    | .headOn .. | .tailOff .. | .cascade .. | .alarm .. => s
  | none => s

/-- The data length of the frame in a slot. -/
def slotLength (i : Fin 4) (s : State) : Nat :=
  match s.txq.slots[i] with
  | some x => x.frame.kind.length.toNat
  | none => 0

/-- R140: the bit times since an instant. -/
def State.bitTimesSince (s : State) (start : Instant) : Nat := elapsed s.clock start / bitTime s.ldr.rateCode

/-- R157: when the last bit of the check word ended, by the bits of the attempt and the reading they stood at. -/
def State.checkSentAt (s : State) (a : Attempt) : Instant :=
  let bits := fun n : Nat => BitVec.ofNat 32 (n * bitTime s.ldr.rateCode)
  a.bitsAt + bits (checkEnd (slotLength a.slot s)) - bits a.bits

/-- R157: the flaw has been sent: the drill disarms and DRILL-FIRED is set, at the end of the last bit of the check word. -/
def fireFlaw (a : Attempt) (s : State) : State :=
  (setSticky .drillFired ((s.setLink { s.link with flawArmed := false }).setClock (s.checkSentAt a))).setClock s.clock

/-- R148, R157: the whole bits of the frame sent so far by the clock (log entry 19); a break sends no more of them. -/
def State.frameBitsSent (s : State) (a : Attempt) : Nat := if a.breaking then a.bits else a.bits + s.bitTimesSince a.bitsAt

/-- R157: the drill is armed, and the last bit of the complemented check word has been sent. -/
def State.flawSent (s : State) : Bool :=
  s.link.flawArmed && s.link.attempt.any fun a =>
    a.flawed && decide (checkEnd (slotLength a.slot s) ≤ s.frameBitsSent a)

/-- R156, R157: the drill is armed now, by the clock. -/
def State.flawStillArmed (s : State) : Bool := s.link.flawArmed && !s.flawSent

/-- R157: before the drill's flags are looked at or set again within an attempt, a flaw that has been sent takes effect (log
entry 34). -/
def catchUpFlaw (s : State) : State :=
  match s.link.attempt with
  | some a => if s.flawSent then fireFlaw a s else s
  | none => s

/-- R157: at the end of the attempt the check word has been sent, but for a break before its last bit, which leaves the drill
armed; a flaw that has taken effect already does not again. -/
def settleFlaw (a : Attempt) (s : State) : State :=
  if s.link.flawArmed && a.flawed && (!a.breaking || checkEnd (slotLength a.slot s) ≤ a.bits) then fireFlaw a s else s

/-- R145, R172: the station's attempt is over: it counts 10 recessive bits to idle, or 18 if the link state after the
attempt's count change is MUTED. -/
def endAttempt (s : State) : State :=
  s.setLink { s.link with attempt := none, recessive := 0, recessiveAt := s.clock, carried := 0, idle := false,
                          extraWait := s.ec.link == .muted }

/-! ### Receptions (R141, R149, R150, R152) -/

/-- The station can be receiving: the link has been given to it (R141) and it is not sending (R150). -/
def hears (s : State) : Bool := s.ldr.phase == .running && s.link.attempt.isNone

/-- R149: the length reckoned from the length field of the frame being received. -/
def Reception.length (r : Reception) : Option Nat := reckonedLength r.frame

/-- R149: an error has been found in the frame being received. -/
def Link.foundError (l : Link) : Bool := l.reception.any Reception.error

/-- R149: a frame is being received in which no error has been found. -/
def Link.soundSoFar (l : Link) : Bool := l.reception.any fun r => !r.error

/-- R150: the station is a receiver that has found no error in the frame. -/
def hearsSound (s : State) : Bool := hears s && !s.link.foundError

/-- R145, R152, R172: the end of a frame not its own, at the end of its reject slot as this station reckons it: the clock is
captured, whether or not the frame was broken by its sender (the model's choice, log entry 44), and the ordinary idle count
starts. `carried` recessive bits of the frame stand directly before it (log entry 46). -/
def endReception (rejected : Bool) (carried : Nat) (s : State) : State :=
  s.setLink { s.link with reception := none, recessive := 0, recessiveAt := s.clock, carried := carried, idle := false,
                          extraWait := false, capture := s.clock, rejectDriven := rejected }

/-- R150: a frame received clean: the reception ends and the clean receive is reported. Its last recessive bits go before the
idle count (R171). -/
def receiveClean (marker : Bool) (s : State) : State :=
  let s := endReception false (cleanEnd marker) s
  s.setEc s.ec.cleanReceive

/-- R141, R145, R172: a reception in progress. A frame on the line ends the idle; one not its own has the ordinary idle
count. -/
def inReception (r : Reception) (s : State) : State :=
  s.setLink { s.link with recessive := 0, recessiveAt := s.clock, carried := 0, idle := false, extraWait := false,
                          rejectDriven := false, reception := some r }

/-- R146, R147, R149: the station becomes a receiver of a frame of which so many bits have been taken, none where its start
bit begins, and else the last of them dominant, and whose bits after the start bit are as given (log entry 45). R171, R174: a dominant bit ends the run of recessive
bits; the recessive count is 0 from the start bit on too (log entry 47). A link state left before this frame no longer bears on
its reject slot (R170). -/
def startReception (bits : Nat) (frame : List Bool) (s : State) : State :=
  let s := inReception { bits := bits, bitsAt := s.clock, frame := frame, error := false } s
  s.setEc { s.ec with joinBits := 0, joinAt := s.clock, spanBits := 0, spanAt := s.clock, silentTo := none }

/-- R145, R171, R174: the bits read in a frame in error, which has been over for the last `past` of them: of the recessive bits
they end with, those since then are counted to idle, and the others go before that count. The line is idle once ten stand in
a row among those counted, or if it was idle before within the frame: it stays so until the next start bit (log entry 39). -/
def countRead (wasIdle : Bool) (past : Nat) (read : List Bool) (s : State) : State :=
  let run := trailingRecessive read
  s.setLink { s.link with recessive := min past run, carried := run - min past run
                          idle := wasIdle || tenRecessive (read.drop (read.length - past)) }

/-- R145: the line is idle within a frame in error. -/
def Link.idleInError (l : Link) : Bool := l.foundError && l.idle

/-- R145, R148, R149: the end of a frame in error at its reject slot as reckoned. Each dominant bit of the slot, whoever drives
it, returns the recessive count to 0. -/
def endInError (drives : Bool) (frame : ReadFrame) (s : State) : State :=
  countRead s.link.idleInError frame.past (frame.bits ++ slotRead drives frame.slot) (endReception drives 0 s)

/-- R141: the bits after the start bit of the frame being received, as far as they are known. -/
def Link.frameSoFar (l : Link) : List Bool := (l.reception.map Reception.frame).getD []

/-- R141, R145, R149: an error has been found in the bits read so far; the rest of the frame is still to be taken. The bits read
stand in place of those that the frame's start announced, whose others follow them. -/
def holdError (read : ReadFrame) (s : State) : State :=
  countRead s.link.idleInError read.past read.bits
    (inReception { bits := read.bits.length + 1, bitsAt := s.clock
                   frame := read.bits ++ s.link.frameSoFar.drop read.bits.length, error := true } s)

/-! ### The line while sending and receiving (R141, R146 to R149) -/

/-- The bits of the frame in a slot as the attempt sends them, the start bit first (R142, R143, R153, R157). -/
def State.wire (s : State) : List Bool :=
  match s.link.attempt with
  | some a =>
    match s.txq.slots[a.slot] with
    | some x => wireBits (x.frame.content s.sender a.age) a.check
    | none => []
  | none => []

/-- R148: the bits of the current attempt from its start bit on; after a bit error the break takes the frame's place. -/
def State.sending (s : State) : List Bool :=
  if s.link.attempt.any Attempt.breaking then s.wire.take ((s.link.attempt.map Attempt.bits).getD 0) ++ breakBits
  else s.wire

/-- R141: the whole bits sent so far of the current attempt, by the clock (log entry 19). -/
def State.bitsSent (s : State) : Nat :=
  match s.link.attempt with
  | some a => min s.sending.length (a.bits + s.bitTimesSince a.bitsAt)
  | none => 0

/-- R141, R149: the whole bits taken so far of the frame being received, by the clock, to the end of the reject slot as reckoned
(log entry 19). -/
def State.bitsTaken (s : State) : Nat :=
  match s.link.reception with
  | some r => min (captureBits (r.length.getD 8)) (r.bits + s.bitTimesSince r.bitsAt)
  | none => 0

/-- R141: the bits taken so far of the frame being received, the dominant start bit first, true for recessive. -/
def State.takenBits (s : State) : List Bool :=
  match s.link.reception with
  | some r => (false :: r.frame).take s.bitsTaken
  | none => []

/-- R141, R149: the length reckoned from the length field, known once that field has been taken. -/
def State.lengthTaken (s : State) : Option Nat := reckonedLength (s.takenBits.drop 1)

/-- R141, R145: the recessive count, by the clock (log entry 19): it does not count on before the link is given, while this
station sends, nor in a frame in which it has found no error, where no run is longer than 9 bits (R143). -/
def State.recessiveBits (s : State) : Nat :=
  if s.ldr.phase != .running || s.link.attempt.isSome || s.link.soundSoFar then s.link.recessive
  else s.link.recessive + s.bitTimesSince s.link.recessiveAt

/-- R171, R174: the run of consecutive recessive bits on the line, the end of the last frame included. -/
def State.recessiveRun (s : State) : Nat := s.link.carried + s.recessiveBits

/-- R171: the recessive bits that JOINING has counted: those of the present run, from the entry on. -/
def State.joinBits (s : State) : Nat := min s.recessiveRun (s.ec.joinBits + s.bitTimesSince s.ec.joinAt)

/-- R174: the bit count within the present idle span: the bits of the present run, from the span's beginning on. -/
def State.spanBits (s : State) : Nat := min s.recessiveRun (s.ec.spanBits + s.bitTimesSince s.ec.spanAt)

/-- R171, R174: the recessive bits JOINING waits for, and those of an idle span. -/
def quietBits : Nat := 16

/-- R149: the reject slot as this station left it: dominant if it drove it. -/
def Link.rejectSlot (l : Link) : List Bool := List.replicate 2 (!l.rejectDriven)

/-- R147: the bit of the arbitration field, 2 to 9 counting the start bit as 1, at which this station sends recessive. -/
def sendsRecessiveInContest (bits : Nat) (s : State) : Bool :=
  2 ≤ bits && bits ≤ 9 && s.wire.getD (bits - 1) false

/-- R148: from the start bit to the last marker bit, outside the recessive bits of the arbitration field. -/
def testsBit (slot : Fin 4) (bits : Nat) (s : State) : Bool :=
  1 ≤ bits && bits ≤ lastMarker (slotLength slot s) && !sendsRecessiveInContest bits s

end Sys2Proof.Machine
end

