-- ==== Sys2Proof/Machine/Schedules.lean ====
section
/-! DEFINITION. The Schedule Store's operations: base speed (R72), lookup (R106, R107), binding and retirement
(R103, R104), close, cancel and clear (R97 to R102). -/

namespace Sys2Proof.Machine

/-- R72, R73: the base speed of the stand at a position, in a train of n stands. -/
def baseSpeed (v : Values) (position n : Nat) : Nat :=
  roundNat (v.vTop * v.hAt n * (1000 + v.fAt n)) (v.hAt position * (1000 + v.fAt position))

/-- The record of a tag (R106); the table never holds tag 0 (R91). -/
def findRecord (table : List Record) (tag : Tag) : Option Record :=
  if tag = 0 then none else table.find? fun r => r.tag == tag

/-- What a lookup answers (R106). -/
structure Found where
  values : Values
  base : Nat
  substituted : Bool
  deriving DecidableEq, Repr

/-- R106: the record of the tag; else the newest record; else the staging record with its base worked by R73. -/
def State.lookup (s : State) (tag : Tag) : Found :=
  match findRecord s.store.table tag with
  | some r => { values := r.values, base := r.base, substituted := false }
  | none =>
    match s.store.table.getLast? with
    | some r => { values := r.values, base := r.base, substituted := true }
    | none => { values := s.store.staging, base := baseSpeed s.store.staging s.position s.ldr.image.n, substituted := true }

/-- The schedule of the piece in the bite (R4). -/
def State.biteSchedule (s : State) : Found := s.lookup s.biteTag

/-- R36, R107: the oldest WAITING record whose tag no marker in the list bears. -/
def oldestUnbound (table : List Record) (markers : List Marker) : Option Record :=
  table.find? fun r => r.state == .waiting && !(markers.any fun m => m.tag == r.tag)

/-- R107: the oldest WAITING record. -/
def oldestWaiting (table : List Record) : Option Record := table.find? fun r => r.state == .waiting

/-- R80, R107: the expected-piece base. After a hold R81 has only a WAITING record closed during or after the hold give one, but
R80 and R105 offer any that survived it: any WAITING record is taken (the model's choice, log entry 48). -/
def State.expectedBase (s : State) : Option Nat :=
  match (frontHead s.trk.markers).bind fun m => findRecord s.store.table m.tag with
  | some r => some r.base
  | none => (oldestWaiting s.store.table).map Record.base

/-- R103: the record of the tag becomes ENTERED, in its place. -/
def enterRecord (tag : Tag) (table : List Record) : List Record :=
  table.map fun r => if r.tag = tag then { r with state := .entered } else r

/-- R104: the ENTERED record leaves the table. -/
def retireEntered (table : List Record) : List Record := table.filter fun r => r.state != .entered

/-- R104, R105: the Schedule Store retires any ENTERED record. -/
def retire (s : State) : State := s.setStore { s.store with table := retireEntered s.store.table }

/-- A copy of staging as a WAITING record of the tag, with its base (R98, R99). -/
def State.closedRecord (s : State) (tag : Tag) : Record :=
  { tag := tag, values := s.store.staging, state := .waiting,
    base := baseSpeed s.store.staging s.position s.ldr.image.n }

/-- R97: the outcomes of a close. -/
inductive CloseOutcome
  | refused | refusedFull | replaced | appended
  deriving DecidableEq, Repr

/-- R97: the checks of a close, in order. -/
def State.closeOutcome (s : State) (tag : Tag) : CloseOutcome :=
  if tag = 0 then .refused
  else if !strictlyDecreasing s.store.staging s.ldr.image.n then .refused
  else match findRecord s.store.table tag with
    | some r => if r.state = .entered then .refused else .replaced
    | none => if 3 ≤ s.store.table.length then .refusedFull else .appended

/-- The bite holds the tag, not 0, and has no ENTERED record (R4, R98). -/
def State.biteAwaits (s : State) (tag : Tag) : Bool :=
  match s.seq.bite with
  | some b => b.tag == tag && tag != 0 && !(s.store.table.any fun r => r.state == .entered)
  | none => false

/-- R98: the copy is appended at the newest end, and bound at once to a bite that awaits it. -/
def appendRecord (tag : Tag) (s : State) : State :=
  let table := s.store.table ++ [s.closedRecord tag]
  s.setStore { s.store with table := if s.biteAwaits tag then enterRecord tag table else table }

/-- R99: the copy takes the place of the record of the tag. -/
def replaceRecord (tag : Tag) (s : State) : State :=
  s.setStore { s.store with table := s.store.table.map fun r => if r.tag = tag then s.closedRecord tag else r }

/-- R97 to R100: a SETUP-CLOSE. -/
def close (tag : Tag) (s : State) : State :=
  match s.closeOutcome tag with
  | .refused => setSticky .closeRefused s
  | .refusedFull => setSticky .scheduleFull (setSticky .closeRefused s)
  | .replaced => replaceRecord tag s
  | .appended => appendRecord tag s

/-- R101: a SETUP-CANCEL. -/
def cancel (tag : Tag) (s : State) : State :=
  match findRecord s.store.table tag with
  | some r =>
    if r.state = .waiting then
      s.setStore { s.store with table := s.store.table.filter fun r => r.tag != tag }
    else setSticky .closeRefused s
  | none => setSticky .closeRefused s

/-- R102: staging back to the defaults of the image. -/
def clearStaging (s : State) : State := s.setStore { s.store with staging := s.ldr.image.defaults }

/-- R94, R95: one pair, with the sticky flag of its outcome. -/
def takePair (p : FieldPair) (s : State) : State :=
  let s := s.setStore { s.store with staging := applyPair s.store.staging p }
  match pairOutcome p with
  | .accepted => s
  | .clamped => setSticky .fieldAdjusted s
  | .refused | .ignored => setSticky .fieldRefused s

end Sys2Proof.Machine
end

