-- ==== Sys2Proof/Machine/Markers.lean ====
section
/-! DEFINITION. The Tracking Unit's operations on the marker list: rates (R39, R40), back-dating (R32 to R35), insertion
(R38), advance and order clamp (R42, R43), removal (R50, R51). -/

namespace Sys2Proof.Machine

/-- R40: the own entry speed e, from this stand's measured roll speed and a schedule's values. -/
def entrySpeed (s : State) (v : Values) : Nat :=
  let i := s.position
  roundNat (s.sens.speed * (1000 + v.fAt i) * v.hAt i) (1000 * v.hAt (i - 1))

/-- R39: the upstream exit speed x, from the upstream view's roll speed and a schedule's values. -/
def exitSpeed (s : State) (v : Values) : Nat :=
  roundNat (s.cas.upView.speed * (1000 + v.fAt (s.position - 1))) 1000

/-- R39, R40: the rate of a marker of a kind and tag, in µm per expiry, from the schedule found for the tag (R41). -/
def markerRate (s : State) (kind : MarkerKind) (tag : Tag) : Nat :=
  match kind with
  | .head => if s.atFirst then entrySpeed s (s.lookup tag).values else exitSpeed s (s.lookup tag).values
  | .tail => entrySpeed s (s.lookup tag).values

/-- R38: the place of a new marker: directly behind the last one not further away. -/
def insertMarker (m : Marker) : List Marker → List Marker
  | [] => [m]
  | x :: xs =>
    if (x :: xs).any fun y => y.distance ≤ m.distance then x :: insertMarker m xs else m :: x :: xs

/-- R33: the marker placed at D (in mm) less its travel in the elapsed time (µs). -/
def placedMarker (s : State) (kind : MarkerKind) (tag : Tag) (mm elapsedUs : Nat) : Marker :=
  { kind := kind, tag := tag, windowOpen := false
    distance := (mm * 1000 : Nat) - (roundNat (markerRate s kind tag * elapsedUs) 1000 : Nat) }

/-- R33, R38: creation: the back-dated marker is inserted, or refused with TRACK-FULL when the list holds 8. -/
def createMarker (kind : MarkerKind) (tag : Tag) (mm elapsedUs : Nat) (s : State) : State :=
  if 8 ≤ s.trk.markers.length then setSticky .trackFull s
  else s.setTrk { s.trk with markers := insertMarker (placedMarker s kind tag mm elapsedUs) s.trk.markers }

/-- R31: the stand states in which markers are created. -/
def StandState.tracks : StandState → Bool
  | .empty | .awaiting | .threading | .coupled | .tailing => true
  | .unconfigured | .hold => false

/-- R32: the elapsed time of a notice, from its age and the capture interval at this station's link rate. -/
def noticeElapsed (s : State) (age : BitVec 16) : Nat := captureBits 3 * bitTime s.ldr.rateCode + 10 * age.toNat

/-- R31 to R34: a notice's marker, from D_up. -/
def trackNotice (kind : MarkerKind) (tag : Tag) (age : BitVec 16) (s : State) : State :=
  if s.seq.stand.tracks then createMarker kind tag s.ldr.image.dUp (noticeElapsed s age) s else s

/-- R35, R36: a rising edge at position 1: the entry tag is set to the tag of the oldest unbound WAITING record, or 0, and a
HEAD marker of that tag is created. -/
def risingEdge (s : State) : State :=
  let tag := match oldestUnbound s.store.table s.trk.markers with
    | some r => r.tag
    | none => 0
  createMarker .head tag s.ldr.image.dEntry 2000 (s.setTrk { s.trk with entryTag := tag })

/-- R35, R37: a falling edge at position 1: a TAIL marker of the entry tag. -/
def fallingEdge (s : State) : State := createMarker .tail s.trk.entryTag s.ldr.image.dEntry 2000 s

/-- R31: an edge of the debounced hot-metal input; lost in HOLD and UNCONFIGURED. -/
def hotMetalEdge (rising : Bool) (s : State) : State :=
  if s.seq.stand.tracks then (if rising then risingEdge s else fallingEdge s) else s

/-- R42: each marker advances by its own rate. -/
def advanceMarkers (s : State) (l : List Marker) : List Marker :=
  l.map fun m => { m with distance := m.distance - (markerRate s m.kind m.tag : Nat) }

/-- R43: walking back from a marker at distance d, each marker below the one ahead is raised to it. -/
def clampFrom (d : Int) : List Marker → List Marker
  | [] => []
  | m :: rest =>
    let m' := if m.distance < d then { m with distance := d } else m
    m' :: clampFrom m'.distance rest

/-- R43: the order clamp; the front marker is not clamped. -/
def clampOrder : List Marker → List Marker
  | [] => []
  | m :: rest => m :: clampFrom m.distance rest

/-- R50: the list without its first HEAD marker. -/
def removeFirstHead (l : List Marker) : List Marker := l.eraseP fun m => m.kind == .head

/-- R51: the first TAIL marker of the tag, or else the first TAIL marker. -/
def removeTail (tag : Tag) (l : List Marker) : List Marker :=
  if l.any fun m => m.kind == .tail && m.tag == tag then l.eraseP fun m => m.kind == .tail && m.tag == tag
  else l.eraseP fun m => m.kind == .tail

/-- R47: the first TAIL marker bearing the tag. -/
def tailOf (tag : Tag) (l : List Marker) : Option Marker := l.find? fun m => m.kind == .tail && m.tag == tag

/-- R37: the first TAIL marker of tag 0 takes the bound tag. -/
def nameTail (tag : Tag) : List Marker → List Marker
  | [] => []
  | m :: rest => if m.kind = .tail ∧ m.tag = 0 then { m with tag := tag } :: rest else m :: nameTail tag rest

/-- R37: the tag bound under R10 is carried back into the list. -/
def carryBack (tag : Tag) (s : State) : State :=
  s.setTrk { markers := nameTail tag s.trk.markers
             entryTag := if s.trk.entryTag = 0 then tag else s.trk.entryTag }

/-- A head's window is open on the marker itself (R45). -/
def anyWindowOpen (l : List Marker) : Bool := l.any fun m => m.kind == .head && m.windowOpen

end Sys2Proof.Machine
end

