-- ==== Sys2Proof/Machine/Loopers.lean ====
section
/-! DEFINITION. The Looper Controller's operations: the commands (3.3), the ramps, the completion tests, the stall and the
tension trim (3.4, 3.5), and the hold line drive that a THREAD-MISS starts (7.2). -/

namespace Sys2Proof.Machine

/-! ### Commands (R55 to R57) -/

/-- R55, R67: RAISE. θ_cmd takes the measured angle as it is, up to the 9,000 of R121, although R52 gives θ_cmd 0..6,000: no
rule clamps it here (the model's choice, log entry 42). -/
def raiseLooper (s : State) : State :=
  match s.lp.state with
  | .parked | .lowering .. =>
    s.setLp { state := .raising 0 s.biteTag, command := s.measuredAngle, integral := 0, trim := 0 }
  | .none | .raising .. | .tension | .stalled .. => s

/-- R56: entry to LOWERING with an operation tag: θ_cmd and t are kept, I is 0. -/
def startLowering (tag : Tag) (s : State) : State :=
  s.setLp { s.lp with state := .lowering 0 tag, integral := 0 }

/-- R56: LOWER. -/
def lowerLooper (tag : Tag) (s : State) : State :=
  match s.lp.state with
  | .raising .. | .tension | .stalled .. => startLowering tag s
  | .none | .parked | .lowering .. => s

/-- R57: HOLD-LOWER, taken as LOWER in RAISING and TENSION only. -/
def holdLowerLooper (tag : Tag) (s : State) : State :=
  match s.lp.state with
  | .raising .. | .tension => startLowering tag s
  | .none | .parked | .lowering .. | .stalled .. => s

/-- R57: hold exit: t is 0, and a STALLED looper goes to LOWERING with operation tag 0. -/
def holdExitLooper (s : State) : State :=
  let s := s.setLp { s.lp with trim := 0 }
  match s.lp.state with
  | .stalled .. => startLowering 0 s
  | .none | .parked | .raising .. | .tension | .lowering .. => s

/-! ### The looper period (R58 to R66) -/

/-- R58, R63: the command moved toward a target by at most a step. -/
def ramp (step target command : Nat) : Nat :=
  if command + step < target then command + step
  else if target + step < command then command - step
  else target

/-- θ_ref[i] of the bite's schedule (R68). -/
def State.thetaRef (s : State) : Nat := s.biteSchedule.values.thetaAt s.position

/-- R57, R60, R64, R65: t becomes 0, but stays frozen in HOLD. -/
def State.trimAtRest (s : State) : Int := if s.seq.stand = .hold then s.lp.trim else 0

/-- R59: |θ_meas − θ_ref| is band or less. -/
def withinBand (measured target band : Nat) : Bool := measured ≤ target + band && target ≤ measured + band

/-- R64, R66: the arm is measured, fresh, at θ_rest + band or less. -/
def State.armAtRest (s : State) : Bool :=
  !s.sens.angleStale && s.measuredAngle ≤ s.ldr.image.thetaRest + s.ldr.image.band

/-- R59: the arm is measured, fresh, within band of θ_ref. -/
def State.armAtReference (s : State) : Bool :=
  !s.sens.angleStale && withinBand s.measuredAngle s.thetaRef s.ldr.image.band

/-- R64: entry to PARKED. -/
def park (s : State) : State :=
  s.setLp { state := .parked, command := s.ldr.image.thetaRest, integral := 0, trim := s.trimAtRest }

/-- R59: entry to TENSION. -/
def enterTension (s : State) : State :=
  s.setLp { state := .tension, command := s.thetaRef, integral := 0, trim := 0 }

/-- R60, R65, R69: entry to STALLED, with the alarm of the stalled operation. -/
def stall (op : LooperOp) (tag : Tag) (s : State) : State :=
  let kind := match op with
    | .raise => AlarmKind.looperStall
    | .lower => AlarmKind.parkFault
  raiseAlarm kind tag (BitVec.ofNat 16 s.measuredAngle)
    (s.setLp { s.lp with state := .stalled op tag, integral := 0, trim := s.trimAtRest })

/-- R58: the ramp toward θ_ref, held while the angle is stale. -/
def rampUp (s : State) : State :=
  if s.sens.angleStale then s
  else s.setLp { s.lp with command := ramp (2 * s.ldr.image.rateUp) s.thetaRef s.lp.command }

/-- R63: the ramp toward θ_rest, held while the angle is stale. -/
def rampDown (s : State) : State :=
  if s.sens.angleStale then s
  else s.setLp { s.lp with command := ramp (2 * s.ldr.image.rateDown) s.ldr.image.thetaRest s.lp.command }

/-- R59: the count of looper periods times 2 ms is at the timeout or over. -/
def timedOut (timer timeout : Nat) : Bool := timeout ≤ timer * 2

/-- R58, R59: a looper period expiry in RAISING. -/
def raisingPeriod (timer : Nat) (tag : Tag) (s : State) : State :=
  let s := rampUp s
  if s.armAtReference then enterTension s
  else if timedOut (timer + 1) s.ldr.image.raiseTimeout then stall .raise tag s
  else s.setLp { s.lp with state := .raising (timer + 1) tag }

/-- R63, R64: a looper period expiry in LOWERING. -/
def loweringPeriod (timer : Nat) (tag : Tag) (s : State) : State :=
  let s := rampDown s
  if s.armAtRest then park s
  else if timedOut (timer + 1) s.ldr.image.lowerTimeout then stall .lower tag s
  else s.setLp { s.lp with state := .lowering (timer + 1) tag }

/-- R61: the angle error e. -/
def State.angleError (s : State) : Int := (s.thetaRef : Int) - (s.measuredAngle : Int)

/-- R61: the new integral term. -/
def State.nextIntegral (s : State) : Int :=
  clampInt (-(s.ldr.image.iMax : Int)) s.ldr.image.iMax
    (s.lp.integral + (s.biteSchedule.values.ki : Int) * s.angleError)

/-- R61: the new trim. -/
def State.nextTrim (s : State) : Int :=
  clampInt (-(s.ldr.image.tMax : Int)) s.ldr.image.tMax
    ((s.biteSchedule.values.kp : Int) * s.angleError + s.nextIntegral)

/-- R61: a looper period expiry in TENSION: θ_cmd is θ_ref; I and t are worked with a fresh angle outside HOLD. -/
def tensionPeriod (s : State) : State :=
  if s.sens.angleStale || s.seq.stand == .hold then s.setLp { s.lp with command := s.thetaRef }
  else s.setLp { s.lp with command := s.thetaRef, integral := s.nextIntegral, trim := s.nextTrim }

/-- R53, R54, R58 to R66: one looper period expiry. -/
def looperPeriod (s : State) : State :=
  if s.seq.stand = .unconfigured then s
  else match s.lp.state with
    | .none => s
    | .parked => s.setLp { s.lp with command := s.ldr.image.thetaRest }
    | .raising timer tag => raisingPeriod timer tag s
    | .tension => tensionPeriod s
    | .lowering timer tag => loweringPeriod timer tag s
    | .stalled .raise _ => s
    | .stalled .lower _ => if s.armAtRest then park s else s

/-! ### The own drive of the hold line (R129, R130) -/

/-- The own drive changes; if the wire changes level with it, the filter's timing starts afresh (R128). -/
def setDrive (drive : Bool) (s : State) : State :=
  let h := { s.hold with ownDrive := drive }
  s.setHold { h with lineAt := if h.line = s.hold.line then s.hold.lineAt else s.clock }

end Sys2Proof.Machine
end

