-- ==== Sys2Proof/Machine/HandOff.lean ====
section
/-! DEFINITION. The Stand Sequencer's steps: load-on (R7 to R12), load-off (R18 to R21), adoption and coupling (R13, R14),
miss (R22, R23), hold entry and exit (R25, R27). -/

namespace Sys2Proof.Machine

/-! ### Bite opening -/

/-- What an arrival is (R7 to R10): the bite's tag, whether a head marker is removed, the flags, and whether the first
station binds an unbound record. -/
structure Arrival where
  tag : Tag
  early : Bool
  unannounced : Bool
  /-- bound by R10: the tag is carried back by R37 -/
  bound : Bool
  deriving DecidableEq, Repr

/-- R7 to R10: the arrival that a load-on in EMPTY or AWAITING is. -/
def State.arrival (s : State) : Arrival :=
  let early := s.seq.stand == .empty
  match frontHead s.trk.markers with
  | some m =>
    if s.atFirst && m.tag == 0 then
      match oldestUnbound s.store.table s.trk.markers with
      | some r => { tag := r.tag, early := early, unannounced := false, bound := true }
      | none => { tag := 0, early := early, unannounced := false, bound := false }
    else { tag := m.tag, early := early, unannounced := false, bound := false }
  | none =>
    if s.atFirst then
      match oldestUnbound s.store.table s.trk.markers with
      | some r => { tag := r.tag, early := false, unannounced := false, bound := true }
      | none => { tag := 0, early := false, unannounced := true, bound := false }
    else { tag := 0, early := false, unannounced := true, bound := false }

/-- R5: the impact remainder at bite opening, from the bite's schedule. -/
def newImpact (v : Values) : Option Impact :=
  if 0 < v.impactTime then some { elapsed := 0, boost := v.boost } else none

/-- R4, R5: the bite record of an arrival is created, with its flags and their sticky flags, its schedule bound and its
impact remainder. -/
def createBite (a : Arrival) (predicted : Bool) (s : State) : State :=
  let substituted := (findRecord s.store.table a.tag).isNone
  let s := s.setStore { s.store with table := if a.tag = 0 then s.store.table else enterRecord a.tag s.store.table }
  let s := setStickyIf substituted .substituted (setStickyIf a.unannounced .unannounced (setStickyIf a.early .early s))
  let bite : Bite :=
    { tag := a.tag, unannounced := a.unannounced, early := a.early, substituted := substituted, predicted := predicted,
      partner := none, impact := newImpact (s.lookup a.tag).values }
  s.setSeq { s.seq with bite := some bite }

/-- R7 to R10, R12: a load-on in EMPTY or AWAITING opens the bite. -/
def openBite (event : Instant) (predicted : Bool) (s : State) : State :=
  let a := s.arrival
  let s := s.setTrk { s.trk with markers := removeFirstHead s.trk.markers }
  let s := if a.bound then carryBack a.tag s else s
  let s := createBite a predicted s
  let s := if a.unannounced then raiseAlarm .unannouncedLoad 0 0 s else s
  let s := offer (.headOn a.tag event) s
  s.setSeq { s.seq with stand := if s.atLast then .coupled else .threading }

/-- R7 to R11: a load-on in each stand state. -/
def loadOn (event : Instant) (predicted : Bool) (s : State) : State :=
  match s.seq.stand with
  | .empty | .awaiting => openBite event predicted s
  | .unconfigured | .threading | .coupled | .tailing | .hold => s

/-! ### Load-off -/

/-- R19: what a load-off in COUPLED at positions 1..N−1, or in THREADING, does besides R18. -/
def lateOrShort (tag : Tag) (s : State) : State :=
  match s.seq.stand with
  | .coupled => if s.atLast then s else setSticky .lateLower (lowerLooper tag s)
  | .threading => setSticky .shortPiece s
  | .unconfigured | .empty | .awaiting | .tailing | .hold => s

/-- R18, R19, R20: a load-off ends the bite. -/
def closeBite (event : Instant) (b : Bite) (s : State) : State :=
  let s := offer (.tailOff b.tag event) s
  let s := s.setTrk { s.trk with markers := removeTail b.tag s.trk.markers }
  let s := retire s
  let s := s.setLp { s.lp with trim := 0 }
  let s := lateOrShort b.tag s
  s.setSeq { stand := if anyWindowOpen s.trk.markers then .awaiting else .empty, bite := none }

/-- R18 to R21: a load-off in each stand state. -/
def loadOff (event : Instant) (s : State) : State :=
  match s.seq.stand, s.seq.bite with
  | .threading, some b | .coupled, some b | .tailing, some b => closeBite event b s
  | _, _ => s

/-! ### Notices -/

/-- R13: the first UPSTREAM HEAD-ON of an UNANNOUNCED bite is adopted. -/
def adopt (b : Bite) (tag : Tag) (s : State) : State :=
  let bind := match findRecord s.store.table tag with
    | some r => r.state == .waiting
    | none => false
  let s := s.setStore { s.store with table := if bind then enterRecord tag s.store.table else s.store.table }
  let s := setStickyIf (!bind) .substituted s
  s.setSeq { s.seq with bite := some { b with tag := tag, unannounced := false } }

/-- R13, R26, R31: an UPSTREAM HEAD-ON at positions 2..N. -/
def upstreamHead (tag : Tag) (age : BitVec 16) (s : State) : State :=
  match s.seq.bite with
  | some b => if b.unannounced then adopt b tag s else trackNotice .head tag age s
  | none => trackNotice .head tag age s

/-- R14: a DOWNSTREAM HEAD-ON in THREADING couples the stand. -/
def couple (b : Bite) (tag : Tag) (s : State) : State :=
  let s := setStickyIf (tag != b.tag) .tagMismatch s
  let s := raiseLooper s
  s.setSeq { stand := .coupled, bite := some { b with partner := some tag } }

/-- R14, R15: a DOWNSTREAM HEAD-ON. -/
def downstreamHead (tag : Tag) (s : State) : State :=
  match s.seq.stand, s.seq.bite with
  | .threading, some b => couple b tag s
  | _, _ => countStray s

/-! ### Misses (R22 to R24) -/

/-- R24: the missed marker's distance in mm, rounded, as a signed 16-bit value, saturated. -/
def missDetail (distance : Int) : BitVec 16 := BitVec.ofInt 16 (clampInt (-32768) 32767 (roundInt distance 1000))

/-- R22, R23: a miss reported for a marker already removed. -/
def reportMiss (s : State) (m : Marker) : State :=
  match s.seq.stand with
  | .empty | .awaiting => setDrive true (raiseAlarm .threadMiss m.tag (missDetail m.distance) s)
  | .threading | .coupled | .tailing => setSticky .strayHead s
  | .unconfigured | .hold => s

/-- The front head marker is within the window (1.3). -/
def State.headInWindow (s : State) : Bool :=
  match frontHead s.trk.markers with
  | some m => m.distance ≤ s.window
  | none => false

/-! ### Hold (R25, R27, R132) -/

/-- R25, R30, R57, R105, R126, R163: hold entry at every block. -/
def holdEntry (s : State) : State :=
  let s := holdLowerLooper s.biteTag s
  let s := retire s
  let s := s.setTrk { markers := [], entryTag := 0 }
  let s := s.setSens { s.sens with drill := none }
  let s := s.setTxq { s.txq with slots := mapSlots clearAtHold s.txq.slots }
  s.setSeq { stand := .hold, bite := none }

/-- R132: hold entry is signalled when the filtered state is ACTIVE and the stand is in a state that can enter HOLD. -/
def enterHoldIfActive (s : State) : State :=
  if s.hold.filtered && s.seq.stand.tracks then holdEntry s else s

/-- R27, R57, R77: hold exit: EMPTY, t and c 0, the limited condition clear. -/
def holdExit (s : State) : State :=
  let s := holdExitLooper s
  let s := s.setCas { s.cas with factor := 0, limited := false }
  s.setSeq { s.seq with stand := .empty }

/-- R27: the stand leaves HOLD once the release is qualified and the detector UNLOADED. -/
def leaveHoldIfReady (s : State) : State :=
  if s.seq.stand = .hold ∧ s.hold.qualified = true ∧ s.sens.loaded = false then holdExit s else s

end Sys2Proof.Machine
end

