-- ==== Sys2Proof/Machine/Frames.lean ====
section
/-! DEFINITION. The frames this station receives (8.4 to 9.6): what becomes of a clean frame by kind and role (R165, R167),
the frames between stand stations, and the frames that are not delivered. -/

namespace Sys2Proof.Machine

/-- What becomes of a clean, well-formed frame. -/
inductive Fate
  /-- CLOSED, no entry, or an UNCONFIGURED station (R165): no state changes, nothing is counted -/
  | ignored
  /-- discarded and counted (R167, R168) -/
  | stray
  /-- acted on -/
  | delivered
  deriving DecidableEq, Repr

/-- R167: the kinds and roles that do not fit. -/
def misfit (s : State) (k : FrameKind) (role : Role) : Bool :=
  match k, role with
  | _, .closed => false
  | .headOn, .upstream => s.atFirst
  | .headOn, .downstream => s.seq.stand != .threading
  | .tailOff, .upstream => s.atFirst
  | .tailOff, .downstream => false
  | .cascade, .upstream | .cascade, .downstream => false
  | .alarm, .upstream | .alarm, .downstream => false
  | .status, .upstream | .status, .downstream => false
  | .headOn, .setup | .tailOff, .setup | .cascade, .setup | .alarm, .setup | .status, .setup => true
  | .setupFields, .setup | .setupClose, .setup | .setupCancel, .setup | .setupClear, .setup => false
  | .release, .setup | .restart, .setup | .drill, .setup => false
  | .setupFields, _ | .setupClose, _ | .setupCancel, _ | .setupClear, _ => true
  | .release, _ | .restart, _ | .drill, _ => true

/-- R165, R167, R180: the fate of a clean, well-formed frame of a kind from a sender. -/
def fate (s : State) (k : FrameKind) (sender : BitVec 5) : Fate :=
  if s.seq.stand = .unconfigured then
    if k = .restart ∧ fromSetup sender = true then .delivered else .ignored
  else match s.roleOf k sender with
    | none | some .closed => .ignored
    | some role => if misfit s k role then .stray else .delivered

/-- R150, R165, R167, R168: a clean, well-formed frame: the clean receive is reported, and the frame is ignored, counted as
stray, or acted on. R150 reports the clean receive of every clean frame, before the acceptance table is looked at; R165 has an
ignored frame change no state, and R169 has it change neither error count. DESIGN CHOICE: the clean receive of an ignored frame
is reported as well and lowers REC, and the frame changes nothing beyond that (log entry 50). -/
def receiveFrame (k : FrameKind) (fin : FrameEnd) (sender : BitVec 5) (act : State → State) (s : State) : State :=
  if hearsSound s then
    match fate s k sender with
    | .ignored => receiveClean fin.marker s
    | .stray => countStray (receiveClean fin.marker s)
    | .delivered => act (receiveClean fin.marker s)
  else s

/-- R13, R14, R31: a HEAD-ON by its role. -/
def headOnAction (sender : BitVec 5) (tag : Tag) (age : BitVec 16) (s : State) : State :=
  match s.roleOf .headOn sender with
  | some .upstream => upstreamHead tag age s
  | some .downstream => downstreamHead tag s
  | some .setup | some .closed | none => s

/-- R31, R15: a TAIL-OFF by its role. -/
def tailOffAction (sender : BitVec 5) (tag : Tag) (age : BitVec 16) (s : State) : State :=
  match s.roleOf .tailOff sender with
  | some .upstream => trackNotice .tail tag age s
  | some .downstream | some .setup | some .closed | none => s

/-- UPSTREAM_HEAD_ON (R13, R26, R31): the table gives the role (log entry 17). -/
def execUpstreamHeadOn (fin : FrameEnd) (sender : BitVec 5) (tag : Tag) (age : BitVec 16) (s : State) : Answer :=
  .next (receiveFrame .headOn fin sender (headOnAction sender tag age) (s.setClock fin.now))

/-- DOWNSTREAM_HEAD_ON (R14, R15): the table gives the role (log entry 17). -/
def execDownstreamHeadOn (fin : FrameEnd) (sender : BitVec 5) (tag : Tag) (age : BitVec 16) (s : State) : Answer :=
  .next (receiveFrame .headOn fin sender (headOnAction sender tag age) (s.setClock fin.now))

/-- UPSTREAM_TAIL_OFF (R31): the table gives the role (log entry 17). -/
def execUpstreamTailOff (fin : FrameEnd) (sender : BitVec 5) (tag : Tag) (age : BitVec 16) (s : State) : Answer :=
  .next (receiveFrame .tailOff fin sender (tailOffAction sender tag age) (s.setClock fin.now))

/-- DOWNSTREAM_TAIL_OFF (R15): ignored and not counted; the table gives the role (log entry 17). -/
def execDownstreamTailOff (fin : FrameEnd) (sender : BitVec 5) (tag : Tag) (age : BitVec 16) (s : State) : Answer :=
  .next (receiveFrame .tailOff fin sender (tailOffAction sender tag age) (s.setClock fin.now))

/-- R84: the view that a CASCADE frame makes, with the frame-end capture. -/
def viewOf (tag : Tag) (factor : BitVec 24) (speed : BitVec 16) (flags : Byte) (capture : Instant) : View :=
  { tag := tag, factor := factor.toInt, speed := speed.toNat, flags := flags, capture := some capture, stale := false }

/-- R84: a CASCADE frame replaces the view of its role. -/
def cascadeAction (sender : BitVec 5) (v : View) (s : State) : State :=
  match s.roleOf .cascade sender with
  | some .upstream => s.setCas { s.cas with upView := v }
  | some .downstream => s.setCas { s.cas with downView := v }
  | some .setup | some .closed | none => s

/-- CASCADE_DELIVERED (R84). -/
def execCascadeDelivered (fin : FrameEnd) (sender : BitVec 5) (tag : Tag) (factor : BitVec 24) (speed : BitVec 16)
    (flags : Byte) (s : State) : Answer :=
  .next (receiveFrame .cascade fin sender (cascadeAction sender (viewOf tag factor speed flags fin.now)) (s.setClock fin.now))

/-- ALARM_RECEIVED (R139, R167): ignored as UPSTREAM or DOWNSTREAM, stray as SETUP. -/
def execAlarmReceived (fin : FrameEnd) (sender : BitVec 5) (s : State) : Answer :=
  .next (receiveFrame .alarm fin sender id (s.setClock fin.now))

/-- STATUS_RECEIVED (R167): ignored as UPSTREAM or DOWNSTREAM, stray as SETUP. -/
def execStatusReceived (fin : FrameEnd) (sender : BitVec 5) (s : State) : Answer :=
  .next (receiveFrame .status fin sender id (s.setClock fin.now))

/-- MALFORMED_FRAME (R154, R168, R169): discarded after its clean receive, and counted except in UNCONFIGURED. -/
def execMalformedFrame (fin : FrameEnd) (precedence : BitVec 3) (_sender : BitVec 5) (kindCode length : BitVec 4)
    (s : State) : Answer :=
  let s := s.setClock fin.now
  .next (if hearsSound s && malformed precedence kindCode length then
      let s := receiveClean fin.marker s
      if s.seq.stand = .unconfigured then s else countStray s
    else s)

/-- FRAME_IGNORED (R165): only the clean receive is reported. DESIGN CHOICE: it lowers REC, as R150 gives it, though R165 and R169
have the frame change nothing (log entry 50). -/
def execFrameIgnored (fin : FrameEnd) (sender : BitVec 5) (kind : FrameKind) (s : State) : Answer :=
  let s := s.setClock fin.now
  .next (if hearsSound s && fate s kind sender == .ignored then receiveClean fin.marker s else s)

/-- STRAY_FRAME (R167, R168): discarded and counted. -/
def execStrayFrame (fin : FrameEnd) (sender : BitVec 5) (kind : FrameKind) (s : State) : Answer :=
  let s := s.setClock fin.now
  .next (if hearsSound s && fate s kind sender == .stray then countStray (receiveClean fin.marker s) else s)

/-- R149: the link states that drive the reject slot. -/
def LinkState.vetoes : LinkState → Bool
  | .active | .warned => true
  | .joining | .muted | .offLink => false

/-- R170: whether the station drives a reject slot that ends now, by the link state at the first of its two bits: a state that
has come about within the slot, at the end of JOINING or at recovery, does not drive it (log entry 52). The counts change no
link state within the slot of a frame being received: they change at the ends of slots and of attempts. -/
def State.drivesSlot (s : State) : Bool := s.ec.link.vetoes && !s.ec.silentTo.any fun t => s.bitTimesSince t < 2

/-- RECEIVE_ERROR (R149, R169): the bits read hold an error. Once the frame is read as reckoned, the reject slot is driven if
the link state at its first bit allows (R170), the frame is discarded and one receive error is reported; before that the error
is held (log entry 20). -/
def execReceiveError (now : Instant) (read : ReadFrame) (s : State) : Answer :=
  let s := s.setClock now
  .next (if hears s && (receiverFinds read.bits).isSome then
      if frameRead read.bits then
        let drives := s.drivesSlot
        let s := endInError drives read s
        s.setEc s.ec.receiveError
      else holdError read s
    else s)

/-- FRAME_REJECTED (R150): a dominant bit in the reject slot; discarded; no error count changes. Each dominant bit of the slot
ends a run of recessive bits (R171, R174). -/
def execFrameRejected (fin : RejectedEnd) (s : State) : Answer :=
  let s := s.setClock fin.now
  .next (if hearsSound s && !(fin.slot.first && fin.slot.second) then
      endReception false (trailingRecessive (slotBits fin.slot)) s
    else s)

end Sys2Proof.Machine
end

