-- ==== Sys2Proof/Machine/LinkEvents.lean ====
section
/-! DEFINITION. The Link Controller's and Error Confinement's own events (ch. 8, 10): idle, contest, attempt, JOINING and
OFF-LINK. -/

namespace Sys2Proof.Machine

/-- NOTICE_AGE_TICK (R153): every pending notice whose age has reached 65,535 is marked as saturated. -/
def execNoticeAgeTick (now : Instant) (s : State) : Answer :=
  let s := s.setClock now
  let tick := Option.map fun x : Slot => if x.inTransmission then x else markSaturated s.clock x
  .next (s.setTxq { s.txq with slots := mapSlots tick s.txq.slots })

/-- R145, R172: the recessive bits that make the line idle for this station. -/
def idleAfter (l : Link) : Nat := if l.extraWait then 18 else idleBits

/-- R145, R171, R174: the line has just read so many recessive bits in a row. A dominant bit in the end field or the
intermission ends every run of them: none goes before those counted. -/
def readRecessive (quiet : QuietLine) (s : State) : State :=
  s.setLink { s.link with recessive := quiet.bits, recessiveAt := s.clock, carried := quiet.before
                          idle := s.link.idle || idleAfter s.link ≤ quiet.bits }

/-- LINE_IDLE (R145, R172): once the clock counts that many bits; the line then stays idle until the next start bit. A frame in
error may have been broken, so that the line falls idle before its end as reckoned; one without an error shows no such run
(R143; log entry 39). -/
def execLineIdle (now : Instant) (quiet : QuietLine) (s : State) : Answer :=
  let s := s.setClock now
  .next (if hears s && !s.link.soundSoFar && quiet.bits ≤ s.recessiveBits then readRecessive quiet s else s)

/-- CONTEST_START (R146), as the start bit begins. -/
def execContestStart (now : Instant) (s : State) : Answer :=
  let s := s.setClock now
  .next (if mayContest s then startContest s else s)

/-- FRAME_START (R146), as the start bit begins: a station that may contend takes part (log entry 21); any other that is not sending becomes a receiver,
in place of a reception that stands (log entry 38). -/
def execFrameStart (start : StartBit) (s : State) : Answer :=
  let s := s.setClock start.now
  .next (if mayContest s then startContest s else if hears s then startReception 0 start.frame s else s)

/-- ARBITRATION_LOST (R147): at a recessive bit of the arbitration field; the frame returns to pending and the station
receives the winning frame, with the bits it has already read: its own, and the lost bit, which it read dominant. -/
def execArbitrationLost (now : Instant) (lost : LostBit) (s : State) : Answer :=
  let s := s.setClock now
  .next (match s.link.attempt with
    | some a =>
      if !a.breaking && sendsRecessiveInContest lost.bits s then
        let read := (s.wire.take (lost.bits - 1)).drop 1 ++ [false]
        let s := settleLost a.slot s
        startReception lost.bits (read ++ lost.rest) (s.setLink { s.link with attempt := none })
      else s
    | none => s)

/-- BIT_ERROR (R148): at a bit the transmitter tests; the break is sent. -/
def execBitError (now : Instant) (bits : Nat) (s : State) : Answer :=
  let s := s.setClock now
  .next (match s.link.attempt with
    | some a =>
      if !a.breaking && testsBit a.slot bits s then
        s.setLink { s.link with recessive := 0, recessiveAt := now, carried := 0
                                attempt := some { a with bits := bits, bitsAt := now, breaking := true } }
      else s
    | none => s)

/-- R152: a frame that reached its reject slot is captured; a broken one is not. -/
def captureEnd (broken : Bool) (s : State) : State :=
  if broken then s else s.setLink { s.link with capture := s.clock }

/-- R163, R173: entry to OFF-LINK frees the slots. -/
def clearIfOffLink (s : State) : State :=
  if s.ec.link = .offLink then s.setTxq { s.txq with slots := freeSlots } else s

/-- ATTEMPT_FAILED (R151, R157, R169, R170, R173): the slot is settled, then the count, then OFF-LINK entry. -/
def execAttemptFailed (now : Instant) (s : State) : Answer :=
  let s := s.setClock now
  .next (match s.link.attempt with
    | some a =>
      let s := settleFailed a.slot (settleFlaw a (captureEnd a.breaking s))
      let s := s.setEc (s.ec.attemptFailed s.clock)
      endAttempt (clearIfOffLink s)
    | none => s)

/-- ATTEMPT_SUCCEEDED (R151, R157, R169, R182): not after a break. -/
def execAttemptSucceeded (now : Instant) (s : State) : Answer :=
  let s := s.setClock now
  .next (match s.link.attempt with
    | some a =>
      if a.breaking then s
      else
        let s := settleSucceeded a.slot (settleFlaw a (captureEnd false s))
        endAttempt (s.setEc s.ec.attemptSucceeded)
    | none => s)

/-- JOINING_END (R171): once 16 consecutive recessive bits have been counted; the link state as the counts give. -/
def execJoiningEnd (now : Instant) (s : State) : Answer :=
  let s := s.setClock now
  .next (if s.ldr.phase = .running ∧ s.ec.link = .joining ∧ quietBits ≤ s.joinBits then
      s.setEc { s.ec with link := linkByCounts s.ec.txErrors s.ec.rxErrors, joinBits := quietBits, joinAt := s.clock
                          silentTo := some s.clock }
    else s)

/-- OFF_LINK_IDLE_SPAN (R174): once the span's 16 bits have been counted: one more span; the 64th recovers the station. -/
def execOffLinkIdleSpan (now : Instant) (s : State) : Answer :=
  let s := s.setClock now
  .next (if s.ec.link = .offLink ∧ quietBits ≤ s.spanBits then s.setEc (s.ec.spanDone s.clock) else s)

/-- OFF_LINK_RECOVERY (R174): the 64th span completes (log entry 16). -/
def execOffLinkRecovery (now : Instant) (s : State) : Answer :=
  let s := s.setClock now
  .next (if s.ec.link = .offLink ∧ 63 ≤ s.ec.spans ∧ quietBits ≤ s.spanBits then s.setEc (s.ec.spanDone s.clock)
    else s)

end Sys2Proof.Machine
end

