-- ==== Sys2Proof/Machine/LooperPeriod.lean ====
section
/-! DEFINITION. The looper's own events (ch. 3): LOOPER_PERIOD_EXPIRY, RAISE_TIMEOUT, LOWER_TIMEOUT. -/

namespace Sys2Proof.Machine

/-- LOOPER_PERIOD_EXPIRY (R58 to R66). -/
def execLooperPeriodExpiry (now : Instant) (s : State) : Answer :=
  .next (looperPeriod (s.setClock now))

/-- R59: this expiry brings the count of a raise to its timeout. -/
def raiseDue (s : State) : Bool :=
  match s.lp.state with
  | .raising timer _ => s.seq.stand != .unconfigured && timedOut (timer + 1) s.ldr.image.raiseTimeout
  | .none | .parked | .tension | .lowering .. | .stalled .. => false

/-- R64: this expiry brings the count of a lower to its timeout. -/
def lowerDue (s : State) : Bool :=
  match s.lp.state with
  | .lowering timer _ => s.seq.stand != .unconfigured && timedOut (timer + 1) s.ldr.image.lowerTimeout
  | .none | .parked | .raising .. | .tension | .stalled .. => false

/-- RAISE_TIMEOUT (R59, R60): the looper period expiry at which the count reaches the raise timeout (log entry 14). -/
def execRaiseTimeout (now : Instant) (s : State) : Answer :=
  let s := s.setClock now
  .next (if raiseDue s then looperPeriod s else s)

/-- LOWER_TIMEOUT (R64, R65): the looper period expiry at which the count reaches the lower timeout (log entry 14). -/
def execLowerTimeout (now : Instant) (s : State) : Answer :=
  let s := s.setClock now
  .next (if lowerDue s then looperPeriod s else s)

end Sys2Proof.Machine
end

