-- ==== Sys2Proof/Machine/SetupFrames.lean ====
section
/-! DEFINITION. The frames of the setup stations: SETUP_FIELDS, SETUP_CLOSE, SETUP_CANCEL, SETUP_CLEAR (ch. 5), RELEASE
(ch. 7), RESTART (ch. 11) and DRILL (6.7, 8.7). -/

namespace Sys2Proof.Machine

/-- SETUP_FIELDS (R94, R95): the first pair, then the second. -/
def execSetupFields (fin : FrameEnd) (sender : BitVec 5) (first second : FieldPair) (s : State) : Answer :=
  .next (receiveFrame .setupFields fin sender (fun s => takePair second (takePair first s)) (s.setClock fin.now))

/-- SETUP_CLOSE (R97 to R100). -/
def execSetupClose (fin : FrameEnd) (sender : BitVec 5) (tag : Tag) (s : State) : Answer :=
  .next (receiveFrame .setupClose fin sender (close tag) (s.setClock fin.now))

/-- SETUP_CANCEL (R101). -/
def execSetupCancel (fin : FrameEnd) (sender : BitVec 5) (tag : Tag) (s : State) : Answer :=
  .next (receiveFrame .setupCancel fin sender (cancel tag) (s.setClock fin.now))

/-- SETUP_CLEAR (R102). -/
def execSetupClear (fin : FrameEnd) (sender : BitVec 5) (s : State) : Answer :=
  .next (receiveFrame .setupClear fin sender clearStaging (s.setClock fin.now))

/-- RELEASE (R130): the own drive ends. -/
def execRelease (fin : FrameEnd) (sender : BitVec 5) (s : State) : Answer :=
  .next (receiveFrame .release fin sender (setDrive false) (s.setClock fin.now))

/-- R171, R163, R164, R168, R180, R182: the rows of a RESTART for the slots, the link and the Status Reporter. -/
def restartLink (s : State) : State :=
  let s := s.setTxq { s.txq with slots := freeSlots }
  let s := s.setEc { s.ec with txErrors := 0, rxErrors := 0, link := .joining, joinBits := 0, joinAt := s.clock, dropped := 0,
                                stray := 0 }
  s.setRep { State.reset.rep with periodFrom := some s.clock }

/-- R28, R30, R53, R71, R91, R92, R126, R130, R156, R89: the rows of a RESTART for the other blocks. -/
def restartStand (s : State) : State :=
  let s := s.setSeq { stand := .empty, bite := none }
  let s := s.setTrk { markers := [], entryTag := 0 }
  let s := s.setStore { staging := s.ldr.image.defaults, table := [] }
  let s := s.setLp { state := if s.atLast then .none else .parked, command := s.ldr.image.thetaRest, integral := 0,
                     trim := 0 }
  let s := s.setCas { factor := 0, limited := false, reference := s.ldr.image.vMin, clamped := false,
                      upView := View.neverHeard, downView := View.neverHeard, periodFrom := some s.clock }
  let s := setDrive false s
  let s := s.setSens { s.sens with drill := none }
  s.setLink { s.link with flawArmed := false }

/-- R180: the target is 0 or this position. -/
def State.addressed (s : State) (target : Byte) : Bool := target == 0 || target.toNat == s.position

/-- R180, R132: an addressed RESTART; a station started into a held train joins the hold. -/
def restartStation (target : Byte) (s : State) : State :=
  if s.addressed target then
    if s.seq.stand = .unconfigured then restartLink s
    else enterHoldIfActive (restartLink (restartStand s))
  else s

/-- RESTART (R180). -/
def execRestart (fin : FrameEnd) (sender : BitVec 5) (target : Byte) (s : State) : Answer :=
  .next (receiveFrame .restart fin sender (restartStation target) (s.setClock fin.now))

/-- R123: the outcomes of a DRILL, the first row that applies. -/
def takeDrill (target kind : Byte) (s : State) : State :=
  if !s.ldr.commissioning then countStray s
  else if !s.addressed target then s
  else if kind = 2 then s.setLink { s.link with flawArmed := true }
  else if kind = 1 then
    if s.seq.stand = .hold ∨ s.sens.drill.isSome = true then s
    else s.setSens { s.sens with drill := some .waiting }
  else countStray s

/-- DRILL (R123, R124, R156). -/
def execDrill (fin : FrameEnd) (sender : BitVec 5) (target kind : Byte) (s : State) : Answer :=
  .next (receiveFrame .drill fin sender (takeDrill target kind) (s.setClock fin.now))

end Sys2Proof.Machine
end

