-- ==== Sys2Proof/Machine/SpeedCascade.lean ====
section
/-! DEFINITION. The Cascade Unit (ch. 4) and the periodic frames: SPEED_PERIOD_EXPIRY, VIEW_STALE, IMPACT_END,
CASCADE_FRAME_PERIOD, STATUS_FRAME_PERIOD. -/

namespace Sys2Proof.Machine

/-- R85: a fresh view whose capture is 16,000 µs or more old is marked stale; its fields are kept. -/
def View.aged (v : View) (now : Instant) : View :=
  match v.capture with
  | some c => if !v.stale && 16000 ≤ elapsed now c then { v with stale := true } else v
  | none => v

/-- R83 step 1. -/
def ageViews (s : State) : State :=
  s.setCas { s.cas with upView := s.cas.upView.aged s.clock, downView := s.cas.downView.aged s.clock }

/-- R74: the composition of two factors in ppm. -/
def compose (a b : Int) : Int := a + b + roundInt (a * b) 1000000

/-- R75: the downstream view's factor is taken: COUPLED or TAILING, positions 1..N−1, and the view's tag is the partner tag. -/
def State.takesDownstream (s : State) : Bool :=
  match s.seq.stand, s.seq.bite with
  | .coupled, some b | .tailing, some b => !s.atLast && b.partner == some s.cas.downView.tag
  | _, _ => false

/-- R75: the downstream term d. -/
def State.downstreamTerm (s : State) : Int := if s.takesDownstream then s.cas.downView.factor else 0

/-- R76: t ⊕ d before the clamp. -/
def State.rawFactor (s : State) : Int := compose s.lp.trim s.downstreamTerm

/-- R76: c = t ⊕ d, clamped. -/
def State.clampedFactor (s : State) : Int := clampInt (-200000) 200000 s.rawFactor

/-- R76: the clamp changed the value, or d came from a view whose LIMITED is set. -/
def State.limitedNow (s : State) : Bool :=
  s.clampedFactor != s.rawFactor || (s.takesDownstream && s.cas.downView.limited)

/-- R76: c in the biting states. -/
def workFactor (s : State) : State :=
  let limited := s.limitedNow
  setStickyIf limited .limitedSeen (s.setCas { s.cas with factor := s.clampedFactor, limited := limited })

/-- R83 step 3, R76, R77. -/
def factorStep (s : State) : State :=
  match s.seq.stand with
  | .threading | .coupled | .tailing => workFactor s
  | .empty | .awaiting | .unconfigured => s.setCas { s.cas with factor := 0, limited := false }
  | .hold => s

/-- R78: the remainder after one more millisecond, with T of the bite's schedule: absent once elapsed reaches T. -/
def Impact.advance (i : Impact) (t : Nat) : Option Impact :=
  if i.elapsed + 1 < t then some { i with elapsed := i.elapsed + 1 } else none

/-- R78: the boost of a remainder that has been advanced. -/
def Impact.boostNow (i : Impact) (t : Nat) : Nat := roundNat (i.boost * (t - i.elapsed)) t

/-- T of the bite's schedule as found now. -/
def State.impactTime (s : State) : Nat := s.biteSchedule.values.impactTime

/-- R83 step 4, R78: the impact remainder is advanced, or removed. -/
def impactStep (s : State) : State :=
  match s.seq.bite with
  | some b => s.setSeq { s.seq with bite := some { b with impact := b.impact.bind fun i => i.advance s.impactTime } }
  | none => s

/-- R78: imp, after `impactStep`. -/
def State.boostPpm (s : State) : Nat :=
  match s.seq.bite.bind Bite.impact with
  | some i => i.boostNow s.impactTime
  | none => 0

/-- R79: the reference before its clamp. -/
def rawReference (base : Nat) (correction : Int) : Int := base + roundInt (base * correction) 1000000

/-- R79: ref = b + round(b × (c + imp) / 10⁶), clamped, with the clamped condition. -/
def workReference (base : Nat) (s : State) : State :=
  let raw := rawReference base (s.cas.factor + s.boostPpm)
  let ref := clampInt s.ldr.image.vMin s.ldr.image.vMax raw
  let clamped := ref != raw
  setStickyIf clamped .clampedSeen (s.setCas { s.cas with reference := ref.toNat, clamped := clamped })

/-- R81: the held reference, brought into range. R81 holds the last reference worked; R71 has a RESTART set the reference to
v_min, which stands until the next speed period expiry. DESIGN CHOICE: an expiry without a base after a RESTART holds that v_min,
and no last worked reference is kept beside it (log entry 51). -/
def holdReference (s : State) : State :=
  s.setCas { s.cas with reference := clampNat s.ldr.image.vMin s.ldr.image.vMax s.cas.reference }

/-- R83 step 5, R79 to R82: the base by stand state, and the reference worked, held, or 0. -/
def referenceStep (s : State) : State :=
  match s.seq.stand with
  | .threading | .coupled | .tailing => workReference s.biteSchedule.base s
  | .empty | .awaiting =>
    match s.expectedBase with
    | some b => workReference b s
    | none => holdReference s
  | .hold => holdReference s
  | .unconfigured => s.setCas { s.cas with reference := 0 }

/-- SPEED_PERIOD_EXPIRY (R83). -/
def execSpeedPeriodExpiry (now : Instant) (s : State) : Answer :=
  .next (referenceStep (impactStep (factorStep (ageViews (s.setClock now)))))

/-- VIEW_STALE (R85): the marking alone, which SPEED_PERIOD_EXPIRY takes as its first step (log entry 15). -/
def execViewStale (now : Instant) (s : State) : Answer :=
  .next (ageViews (s.setClock now))

/-- R78: the remainder that the next millisecond brings to T is removed. -/
def endImpact (b : Bite) (t : Nat) : Bite :=
  { b with impact := b.impact.bind fun i => (i.advance t).map fun _ => i }

/-- IMPACT_END (R78): the removal alone, at the expiry whose millisecond brings elapsed to T (log entry 15). -/
def execImpactEnd (now : Instant) (s : State) : Answer :=
  let s := s.setClock now
  .next (match s.seq.bite with
    | some b => s.setSeq { s.seq with bite := some (endImpact b s.impactTime) }
    | none => s)

/-- A period that began at an instant has run its length in µs. -/
def periodDone (length : Nat) (now : Instant) (start : Option Instant) : Bool :=
  match start with
  | some p => length ≤ elapsed now p
  | none => false

/-- The next period begins where the last one ended. -/
def nextPeriod (length : Nat) (start : Option Instant) : Option Instant := start.map fun p => p + BitVec.ofNat 32 length

/-- R87: the CASCADE frame of this moment. -/
def cascadeFrame (s : State) : TxFrame :=
  .cascade s.biteTag s.cas.factor s.sens.speed (cascadeFlags s)

/-- CASCADE_FRAME_PERIOD (R87 to R89): every 4 ms, in every stand state except UNCONFIGURED. -/
def execCascadeFramePeriod (now : Instant) (s : State) : Answer :=
  let s := s.setClock now
  .next (if s.seq.stand ≠ .unconfigured ∧ periodDone 4000 now s.cas.periodFrom = true then
      offer (cascadeFrame s) (s.setCas { s.cas with periodFrom := nextPeriod 4000 s.cas.periodFrom })
    else s)

/-- STATUS_FRAME_PERIOD (R181): every 100 ms, in every stand state, with the drill's flags of this moment (R157). -/
def execStatusFramePeriod (now : Instant) (s : State) : Answer :=
  let s := s.setClock now
  .next (if periodDone 100000 now s.rep.periodFrom then
      let s := catchUpFlaw s
      offer (.status (statusData s)) (s.setRep { s.rep with periodFrom := nextPeriod 100000 s.rep.periodFrom })
    else s)

end Sys2Proof.Machine
end

