-- ==== Sys2Proof/Machine/StandSensing.lean ====
section
/-! DEFINITION. Stand Sensing (ch. 6): the force load detector, the two feedback holders, the hot-metal detector and the
SENSOR-LOST alarm. -/

namespace Sys2Proof.Machine

/-- The part is out of reset: sampling and filtering run from the release (R110, R128, R177). -/
def sampling (s : State) : Bool := s.ldr.phase != .held

/-! ### The force load detector -/

/-- R112: the samples needed at a measured roll speed. -/
def samplesNeeded (speed : Nat) : Nat :=
  if speed < 2000 then 32 else if speed < 5000 then 16 else if speed < 10000 then 8 else 4

/-- R113, R114: the run after one more sample on the far side, taken at an arrival instant. -/
def extendRun (run : Option Run) (arrival : Instant) : Run :=
  match run with
  | some r => { r with length := r.length + 1 }
  | none => { length := 1, first := arrival }

/-- R113, R125: a load-on is decided: the waiting drill discards it, else the detector is LOADED and the Sequencer takes it. -/
def decideLoadOn (event : Instant) (s : State) : State :=
  if s.sens.drill = some .waiting then
    setSticky .drillFired (catchUpFlaw (s.setSens { s.sens with loaded := false, run := none, drill := some .blocking }))
  else loadOn event false (s.setSens { s.sens with loaded := true, run := none })

/-- R114, R27: a load-off is decided: the detector is UNLOADED, the Sequencer takes it, and it may end a hold. -/
def decideLoadOff (event : Instant) (s : State) : State :=
  leaveHoldIfReady (loadOff event (s.setSens { s.sens with loaded := false, run := none }))

/-- R112 to R114: a sample on the far side of the threshold extends the run, which may qualify. -/
def farSample (s : State) : State :=
  let r := extendRun s.sens.run s.clock
  if samplesNeeded s.sens.speed ≤ r.length then
    if s.sens.loaded then decideLoadOff r.first s else decideLoadOn r.first s
  else s.setSens { s.sens with run := some r }

/-- R113, R114: a sample back across the threshold ends the run. -/
def nearSample (s : State) : State := s.setSens { s.sens with run := none }

/-- R113, R114, R125: the detector takes a sample. -/
def evaluateForce (force : Nat) (s : State) : State :=
  if s.sens.drill = some .blocking then
    if force < s.ldr.image.fOff then s.setSens { s.sens with drill := none } else s
  else if s.sens.loaded then
    if force < s.ldr.image.fOff then farSample s else nearSample s
  else if s.ldr.image.fOn ≤ force then farSample s else nearSample s

/-- R118, R126: at a resumption the detector is aligned with the bite, without a decision; an alignment to LOADED disarms a
blocking drill. -/
def alignDetector (s : State) : State :=
  let biting := s.seq.bite.isSome
  s.setSens { s.sens with loaded := biting
                          drill := if biting && s.sens.drill == some .blocking then none else s.sens.drill }

/-- R110: an arrival restarts the silence timer and makes the input fresh. -/
def forceArrives (s : State) : State := s.setSens { s.sens with forceStale := false, forceAt := s.clock }

/-- R110, R113, R114, R118: a roll-force sample. -/
def takeForce (force : Nat) (s : State) : State :=
  let resumes := s.sens.forceStale
  let s := forceArrives s
  let s := if resumes then leaveHoldIfReady (alignDetector s) else s
  if s.seq.stand = .unconfigured then s else evaluateForce (min force 40000) s

/-- FORCE_SAMPLE (R110 to R118, R124 to R126). -/
def execForceSample (now : Instant) (force : Nat) (s : State) : Answer :=
  let s := s.setClock now
  .next (if sampling s then takeForce force s else s)

/-! ### Staleness -/

/-- R122: at an entry to stale, with a bite or a head marker present, SENSOR-LOST is raised. -/
def sensorLost (detail : BitVec 16) (s : State) : State :=
  match s.seq.bite, frontHead s.trk.markers with
  | some b, _ => raiseAlarm .sensorLost b.tag detail s
  | none, some m => raiseAlarm .sensorLost m.tag detail s
  | none, none => s

/-- FORCE_STALE (R116, R122): the silence timer has run 2,000 µs. -/
def execForceStale (now : Instant) (s : State) : Answer :=
  let s := s.setClock now
  .next (if sampling s && !s.sens.forceStale && 2000 ≤ elapsed now s.sens.forceAt then
      sensorLost 1 (s.setSens { s.sens with forceStale := true, run := none })
    else s)

/-- SPEED_FEEDBACK_SAMPLE (R121). -/
def execSpeedFeedbackSample (now : Instant) (speed : BitVec 16) (s : State) : Answer :=
  let s := s.setClock now
  .next (if sampling s then
      s.setSens { s.sens with speed := speed.toNat, speedStale := false, speedAt := now }
    else s)

/-- SPEED_FEEDBACK_STALE (R121, R122): the silence timer has run 5,000 µs. -/
def execSpeedFeedbackStale (now : Instant) (s : State) : Answer :=
  let s := s.setClock now
  .next (if sampling s && !s.sens.speedStale && 5000 ≤ elapsed now s.sens.speedAt then
      sensorLost 3 (s.setSens { s.sens with speedStale := true })
    else s)

/-- ANGLE_SAMPLE (R121): a value above 9,000 is taken as 9,000. -/
def execAngleSample (now : Instant) (angle : Nat) (s : State) : Answer :=
  let s := s.setClock now
  .next (if sampling s then
      s.setSens { s.sens with angle := some (min angle 9000), angleStale := false, angleAt := now }
    else s)

/-- ANGLE_STALE (R121, R122): the silence timer has run 5,000 µs. -/
def execAngleStale (now : Instant) (s : State) : Answer :=
  let s := s.setClock now
  .next (if sampling s && !s.sens.angleStale && 5000 ≤ elapsed now s.sens.angleAt then
      sensorLost 2 (s.setSens { s.sens with angleStale := true })
    else s)

/-! ### The hot-metal detector -/

/-- R119, R120: the candidate run after one more reading at a level. -/
def extendHotRun (run : Option HotRun) (level : Bool) (instant : Instant) : HotRun :=
  match run with
  | some r => if r.level = level then { r with count := r.count + 1 } else { level := level, count := 1, first := instant }
  | none => { level := level, count := 1, first := instant }

/-- R119, R120: one reading of the hot-metal input. The ninth agreeing reading sets the level; if a level was set before,
that is an edge. -/
def readHotMetal (level : Bool) (s : State) : State :=
  if s.sens.hotLevel = some level then s.setSens { s.sens with hotRun := none }
  else
    let r := extendHotRun s.sens.hotRun level s.clock
    if 9 ≤ r.count then
      let changed := s.setSens { s.sens with hotLevel := some level, hotRun := none }
      if s.sens.hotLevel.isSome then hotMetalEdge level changed else changed
    else s.setSens { s.sens with hotRun := some r }

/-- HOT_METAL_READING (R119, R120): read at position 1 only. -/
def execHotMetalReading (now : Instant) (high : Bool) (s : State) : Answer :=
  let s := s.setClock now
  .next (if sampling s && s.atFirst then readHotMetal high s else s)

/-- R119: eight readings differ from the debounced level, so that the next one changes it. -/
def edgeDue (s : State) : Option Bool :=
  match s.sens.hotLevel, s.sens.hotRun with
  | some l, some r => if r.level != l && 8 ≤ r.count then some r.level else none
  | _, _ => none

/-- HOT_METAL_EDGE (R119): the ninth reading at the new level (log entry 16). -/
def execHotMetalEdge (now : Instant) (s : State) : Answer :=
  let s := s.setClock now
  .next (if sampling s && s.atFirst then
      match edgeDue s with
      | some level => readHotMetal level s
      | none => s
    else s)

end Sys2Proof.Machine
end

