-- ==== Sys2Proof/Config.lean ====
section
/-! DEFINITION. The free values: what the spec leaves to the part, as constants without a body.
Nothing can be proved of their values. -/

namespace Sys2Proof

/-- R177: a low pulse of 2 µs or more but shorter than 10 µs "either resets the part or is ignored".
Applied to the number of free values drawn so far. Log entry 13. -/
opaque Config.shortPulseResets : Nat → Bool

end Sys2Proof
end

