-- ==== Sys2Proof/Machine/StartUp.lean ====
section
/-! DEFINITION. Reset, straps, the configuration image and start-up (ch. 11): PIN_RESET, RESET_RELEASE, CONFIG_READ_DONE,
CONFIG_READ_TIMEOUT. -/

namespace Sys2Proof.Machine

/-- R177: whether a pulse resets the part: never below 2 µs, always from 10 µs on, and between them a free value
(log entry 13). -/
def pulseResets (draws : Nat) : ResetPulse → Bool
  | .powerOn => true
  | .low us => if us < 2 then false else if us < 10 then Config.shortPulseResets draws else true

/-- A free value is drawn for a pulse of 2 µs or more but shorter than 10 µs. -/
def pulseDraws : ResetPulse → Nat
  | .powerOn => 0
  | .low us => if 2 ≤ us ∧ us < 10 then 1 else 0

/-- R177: every block at its reset values. The clock runs on, the queue is not the part's, and the wire of the hold line
stays as the rest of the line gives it (log entries 9, 11). -/
def resetBlocks (s : State) : State :=
  { State.reset with
    pending := s.pending, clock := s.clock, draws := s.draws
    hold := { State.reset.hold with timer := some s.clock, others := s.hold.others, lineAt := s.clock } }

/-- PIN_RESET (R177). -/
def execPinReset (now : Instant) (pulse : ResetPulse) (s : State) : Answer :=
  let s := s.setClock now
  let resets := pulseResets s.draws pulse
  let s := s.setDraws (s.draws + pulseDraws pulse)
  .next (if resets then resetBlocks s else s)

/-- R176, R128, R119: at the release the straps are read, the image read begins, the hold line is filtered from here on,
and at positions 2..N the hot-metal level is LOW. The release qualification timer, which R127 has running from 0 after a
pin reset, starts again here (the model's choice, log entry 43). -/
def releaseReset (positionCode : BitVec 3) (rateCode : BitVec 2) (commissioning : Bool) (s : State) : State :=
  let s := s.setLdr { s.ldr with phase := .reading, releasedAt := s.clock, positionCode := positionCode,
                                 rateCode := rateCode, commissioning := commissioning }
  let s := s.setHold { s.hold with timer := some s.clock, lineAt := s.clock }
  s.setSens { s.sens with hotLevel := if s.atFirst then none else some false }

/-- RESET_RELEASE (R176). -/
def execResetRelease (now : Instant) (positionCode : BitVec 3) (rateCode : BitVec 2) (commissioning : Bool)
    (s : State) : Answer :=
  let s := s.setClock now
  .next (if s.ldr.phase = .held then releaseReset positionCode rateCode commissioning s else s)

/-- R141, R171, R179, R181: the link is given to the Link Controller, which watches the line from here on, in JOINING, and
the status frame period starts. -/
def giveLink (s : State) : State :=
  let s := s.setLdr { s.ldr with phase := .running }
  let s := s.setLink { s.link with recessiveAt := s.clock }
  let s := s.setEc { s.ec with link := .joining, joinBits := 0, joinAt := s.clock }
  s.setRep { s.rep with periodFrom := some s.clock }

/-- R179: a good image: the configured values, EMPTY, PARKED or NONE, staging at the defaults, and the cascade frame
period starts. -/
def configure (image : Image) (s : State) : State :=
  let s := s.setLdr { s.ldr with image := image }
  let s := s.setSeq { stand := .empty, bite := none }
  let s := s.setLp { state := if s.atLast then .none else .parked, command := image.thetaRest, integral := 0, trim := 0 }
  let s := s.setStore { s.store with staging := image.defaults }
  s.setCas { s.cas with periodFrom := some s.clock }

/-- CONFIG_READ_DONE (R178, R179): the read is judged; it is bad too if it completes after the 20 ms. -/
def execConfigReadDone (now : Instant) (image : List Byte) (s : State) : Answer :=
  let s := s.setClock now
  .next (if s.ldr.phase = .reading then
      if imageGood s.position image && elapsed now s.ldr.releasedAt ≤ 20000 then
        enterHoldIfActive (giveLink (configure (parseImage s.position image) s))
      else giveLink s
    else s)

/-- CONFIG_READ_TIMEOUT (R178): 20 ms after the release the image is bad. -/
def execConfigReadTimeout (now : Instant) (s : State) : Answer :=
  let s := s.setClock now
  .next (if s.ldr.phase = .reading ∧ 20000 ≤ elapsed now s.ldr.releasedAt then giveLink s else s)

end Sys2Proof.Machine
end

