-- ==== Sys2Proof/Machine/StripTracking.lean ====
section
/-! DEFINITION. The tracking expiry (R41 to R49), with what the Stand Sequencer and Stand Sensing do at it (R6, R17, R22,
R23, R117). -/

namespace Sys2Proof.Machine

/-- R41, R42, R43: every marker is advanced by its rate and the list is clamped; a substituted lookup sets SUBSTITUTED. -/
def advanceAll (s : State) : State :=
  let substituted := s.trk.markers.any fun m => (s.lookup m.tag).substituted
  setStickyIf substituted .substituted
    (s.setTrk { s.trk with markers := clampOrder (advanceMarkers s s.trk.markers) })

/-- R46, R48: past the stand by more than W. -/
def pastWindow (w : Int) (k : MarkerKind) (m : Marker) : Bool := m.kind == k && m.distance < -w

/-- R44 step 1, R48: overdue tails are removed. -/
def dropOverdue (s : State) : State :=
  let past := pastWindow s.window .tail
  setStickyIf (s.trk.markers.any past) .tailOverdue
    (s.setTrk { s.trk with markers := s.trk.markers.filter fun m => !past m })

/-- R6: after a miss an AWAITING stand whose front head marker is absent or further away than W becomes EMPTY. -/
def afterMiss (s : State) : State :=
  if s.seq.stand = .awaiting ∧ s.headInWindow = false then s.setSeq { s.seq with stand := .empty } else s

/-- R44 step 2, R46, R22, R23: missed heads are removed and reported, front to back. -/
def dropMissed (s : State) : State :=
  let past := pastWindow s.window .head
  let missed := s.trk.markers.filter past
  let s := missed.foldl reportMiss (s.setTrk { s.trk with markers := s.trk.markers.filter fun m => !past m })
  if missed.isEmpty then s else afterMiss s

/-- R44 step 3, R45, R6: WINDOW-OPEN is set on heads within W, and the front head takes an EMPTY stand to AWAITING. -/
def openWindows (s : State) : State :=
  let mark := fun m : Marker => if m.kind = .head ∧ m.distance ≤ s.window then { m with windowOpen := true } else m
  let s := s.setTrk { s.trk with markers := s.trk.markers.map mark }
  if s.seq.stand = .empty ∧ s.headInWindow = true then s.setSeq { s.seq with stand := .awaiting } else s

/-- R47: the bite's first tail marker stands at L_low of the bite's schedule or less. -/
def State.tailLead (s : State) : Bool :=
  match s.seq.bite with
  | some b =>
    match tailOf b.tag s.trk.markers with
    | some m => m.distance ≤ (s.biteSchedule.values.lLow * 1000 : Nat)
    | none => false
  | none => false

/-- R44 step 4, R17: the tail lead takes a COUPLED stand at positions 1..N−1 to TAILING and lowers the looper. -/
def leadTail (s : State) : State :=
  if s.seq.stand = .coupled ∧ s.atLast = false ∧ s.tailLead = true then
    let s := lowerLooper s.biteTag s
    s.setSeq { s.seq with stand := .tailing }
  else s

/-- R49: the front head marker stands at 0 or below. -/
def State.headCrossing (s : State) : Bool :=
  match frontHead s.trk.markers with
  | some m => m.distance ≤ 0
  | none => false

/-- R49: the bite's first tail marker stands at 0 or below. -/
def State.tailCrossing (s : State) : Bool :=
  match s.seq.bite with
  | some b =>
    match tailOf b.tag s.trk.markers with
    | some m => m.distance ≤ 0
    | none => false
  | none => false

/-- R44 step 5, R117: while the force input is stale the crossings declare load events, by the stand state at this step. -/
def predict (s : State) : State :=
  if s.sens.forceStale then
    match s.seq.stand with
    | .awaiting => if s.headCrossing then loadOn s.clock true s else s
    | .threading | .coupled | .tailing => if s.tailCrossing then loadOff s.clock s else s
    | .unconfigured | .empty | .hold => s
  else s

/-- TRACKING_EXPIRY (R44): nothing in UNCONFIGURED (R2). -/
def execTrackingExpiry (now : Instant) (s : State) : Answer :=
  let s := s.setClock now
  .next (if s.seq.stand = .unconfigured then s
    else predict (leadTail (openWindows (dropMissed (dropOverdue (advanceAll s))))))

end Sys2Proof.Machine
end

