-- ==== Sys2Proof/Machine/TrainHold.lean ====
section
/-! DEFINITION. The Hold Monitor's events (ch. 7): HOLD_LINE_CHANGE, HOLD_LINE_ACTIVE, HOLD_LINE_RELEASED,
RELEASE_QUALIFIED. -/

namespace Sys2Proof.Machine

/-- HOLD_LINE_CHANGE (R128): the rest of the line changes the level it gives; if the wire changes with it, the filter's
1,000 µs start afresh (log entry 11). -/
def execHoldLineChange (now : Instant) (active : Bool) (s : State) : Answer :=
  let s := s.setClock now
  let h := { s.hold with others := active }
  .next (s.setHold { h with lineAt := if h.line = s.hold.line then s.hold.lineAt else now })

/-- R128: the wire has read its present level for 1,000 µs. -/
def lineSettled (s : State) : Bool := sampling s && 1000 ≤ elapsed s.clock s.hold.lineAt

/-- HOLD_LINE_ACTIVE (R128, R131, R132): the filtered state becomes ACTIVE, the qualification is withdrawn and hold entry is
signalled. -/
def execHoldLineActive (now : Instant) (s : State) : Answer :=
  let s := s.setClock now
  .next (if lineSettled s && s.hold.line && !s.hold.filtered then
      enterHoldIfActive (s.setHold { s.hold with filtered := true, timer := none, qualified := false })
    else s)

/-- HOLD_LINE_RELEASED (R128, R131): the filtered state becomes RELEASED and the qualification timer starts from 0. -/
def execHoldLineReleased (now : Instant) (s : State) : Answer :=
  let s := s.setClock now
  .next (if lineSettled s && !s.hold.line && s.hold.filtered then
      s.setHold { s.hold with filtered := false, timer := some now, qualified := false }
    else s)

/-- R131: the qualification timer has run 200 ms. -/
def qualificationDone (s : State) : Bool :=
  match s.hold.timer with
  | some t => sampling s && !s.hold.filtered && 200000 ≤ elapsed s.clock t
  | none => false

/-- RELEASE_QUALIFIED (R131, R27). -/
def execReleaseQualified (now : Instant) (s : State) : Answer :=
  let s := s.setClock now
  .next (if qualificationDone s then leaveHoldIfReady (s.setHold { s.hold with timer := none, qualified := true })
    else s)

end Sys2Proof.Machine
end

