-- ==== Sys2Proof/Machine/Dispatch.lean ====
section
/-! DEFINITION. One arm per command: its meaning. -/

namespace Sys2Proof.Machine

def exec (i : Instr) (s : State) : Host.Outcome State Fault Refusal :=
  match i with
  | .pinReset now pulse => Sys2Proof.Machine.execPinReset now pulse s
  | .resetRelease now positionCode rateCode commissioning => Sys2Proof.Machine.execResetRelease now positionCode rateCode commissioning s
  | .configReadDone now image => Sys2Proof.Machine.execConfigReadDone now image s
  | .configReadTimeout now => Sys2Proof.Machine.execConfigReadTimeout now s
  | .forceSample now force => Sys2Proof.Machine.execForceSample now force s
  | .forceStale now => Sys2Proof.Machine.execForceStale now s
  | .speedFeedbackSample now speed => Sys2Proof.Machine.execSpeedFeedbackSample now speed s
  | .speedFeedbackStale now => Sys2Proof.Machine.execSpeedFeedbackStale now s
  | .angleSample now angle => Sys2Proof.Machine.execAngleSample now angle s
  | .angleStale now => Sys2Proof.Machine.execAngleStale now s
  | .hotMetalEdge now => Sys2Proof.Machine.execHotMetalEdge now s
  | .trackingExpiry now => Sys2Proof.Machine.execTrackingExpiry now s
  | .looperPeriodExpiry now => Sys2Proof.Machine.execLooperPeriodExpiry now s
  | .raiseTimeout now => Sys2Proof.Machine.execRaiseTimeout now s
  | .lowerTimeout now => Sys2Proof.Machine.execLowerTimeout now s
  | .speedPeriodExpiry now => Sys2Proof.Machine.execSpeedPeriodExpiry now s
  | .viewStale now => Sys2Proof.Machine.execViewStale now s
  | .impactEnd now => Sys2Proof.Machine.execImpactEnd now s
  | .cascadeFramePeriod now => Sys2Proof.Machine.execCascadeFramePeriod now s
  | .statusFramePeriod now => Sys2Proof.Machine.execStatusFramePeriod now s
  | .noticeAgeTick now => Sys2Proof.Machine.execNoticeAgeTick now s
  | .holdLineActive now => Sys2Proof.Machine.execHoldLineActive now s
  | .holdLineReleased now => Sys2Proof.Machine.execHoldLineReleased now s
  | .releaseQualified now => Sys2Proof.Machine.execReleaseQualified now s
  | .upstreamHeadOn fin sender tag age => Sys2Proof.Machine.execUpstreamHeadOn fin sender tag age s
  | .downstreamHeadOn fin sender tag age => Sys2Proof.Machine.execDownstreamHeadOn fin sender tag age s
  | .upstreamTailOff fin sender tag age => Sys2Proof.Machine.execUpstreamTailOff fin sender tag age s
  | .downstreamTailOff fin sender tag age => Sys2Proof.Machine.execDownstreamTailOff fin sender tag age s
  | .cascadeDelivered fin sender tag factor speed flags => Sys2Proof.Machine.execCascadeDelivered fin sender tag factor speed flags s
  | .alarmReceived fin sender => Sys2Proof.Machine.execAlarmReceived fin sender s
  | .statusReceived fin sender => Sys2Proof.Machine.execStatusReceived fin sender s
  | .setupFields fin sender first second => Sys2Proof.Machine.execSetupFields fin sender first second s
  | .setupClose fin sender tag => Sys2Proof.Machine.execSetupClose fin sender tag s
  | .setupCancel fin sender tag => Sys2Proof.Machine.execSetupCancel fin sender tag s
  | .setupClear fin sender => Sys2Proof.Machine.execSetupClear fin sender s
  | .release fin sender => Sys2Proof.Machine.execRelease fin sender s
  | .restart fin sender target => Sys2Proof.Machine.execRestart fin sender target s
  | .drill fin sender target kind => Sys2Proof.Machine.execDrill fin sender target kind s
  | .malformedFrame fin precedence sender kindCode length => Sys2Proof.Machine.execMalformedFrame fin precedence sender kindCode length s
  | .receiveError now read => Sys2Proof.Machine.execReceiveError now read s
  | .frameRejected fin => Sys2Proof.Machine.execFrameRejected fin s
  | .lineIdle now quiet => Sys2Proof.Machine.execLineIdle now quiet s
  | .contestStart now => Sys2Proof.Machine.execContestStart now s
  | .arbitrationLost now lost => Sys2Proof.Machine.execArbitrationLost now lost s
  | .bitError now bits => Sys2Proof.Machine.execBitError now bits s
  | .attemptFailed now => Sys2Proof.Machine.execAttemptFailed now s
  | .attemptSucceeded now => Sys2Proof.Machine.execAttemptSucceeded now s
  | .joiningEnd now => Sys2Proof.Machine.execJoiningEnd now s
  | .offLinkRecovery now => Sys2Proof.Machine.execOffLinkRecovery now s
  | .hotMetalReading now high => Sys2Proof.Machine.execHotMetalReading now high s
  | .holdLineChange now active => Sys2Proof.Machine.execHoldLineChange now active s
  | .frameStart start => Sys2Proof.Machine.execFrameStart start s
  | .frameIgnored fin sender kind => Sys2Proof.Machine.execFrameIgnored fin sender kind s
  | .strayFrame fin sender kind => Sys2Proof.Machine.execStrayFrame fin sender kind s
  | .offLinkIdleSpan now => Sys2Proof.Machine.execOffLinkIdleSpan now s

end Sys2Proof.Machine
end

