-- ==== Sys2Proof/Machine/Step.lean ====
section
/-! DEFINITION. One step: the command at the front of the queue; on an empty queue the station clock counts on. -/

namespace Sys2Proof.Machine

/-- The front command is taken with the queue's rest; with nothing waiting, 1 µs passes on the station clock (00 5.4, log
entry 2). -/
def step (s : State) : Host.Outcome State Fault Refusal :=
  match s.pending with
  | c :: rest => exec c (s.setPending rest)
  | [] => .next (s.setClock (s.clock + 1))

/-- The command that a word spells, put in front of the queue; no word spells one (log entry 8). -/
def State.withFetchWord (s : State) (nbits w : Nat) : State :=
  match decodeTableWord nbits w with
  | some c => s.setPending (c :: s.pending)
  | none => s

end Sys2Proof.Machine
end

