-- ==== Sys2Proof/Safety.lean ====
section
/-! DEFINITION. The manual's "Laws of the device" and the reserved values it names, as predicates of a state, each closed
under a step (the statements say so). All are decidable. -/

namespace Sys2Proof.Machine

/-! ### Tracking (R29) -/

/-- R29: never more than 8 markers, and distances never decrease from front to back. -/
abbrev MarkersLawful (l : List Marker) : Prop :=
  l.length ≤ 8 ∧ l.Pairwise fun x y => x.distance ≤ y.distance

/-! ### The bite and the schedule table (R3, R4, R91) -/

/-- R91: never more than 3 records, never two with one tag, never tag 0. -/
abbrev TableLawful (table : List Record) : Prop :=
  table.length ≤ 3 ∧ (table.map Record.tag).Nodup ∧ ∀ r ∈ table, r.tag ≠ 0

/-- R3: biting exactly when the bite holds a piece. -/
abbrev BiteLawful (q : Sequencer) : Prop := q.stand.biting = q.bite.isSome

/-- R4: an ENTERED record bears the tag of the piece in the bite. -/
abbrev EnteredLawful (s : State) : Prop :=
  ∀ r ∈ s.store.table, r.state = .entered → s.seq.bite.map Bite.tag = some r.tag

/-- R9, R10, R13: an UNANNOUNCED bite has tag 0. -/
abbrev UnannouncedLawful (s : State) : Prop :=
  ∀ b ∈ s.seq.bite, b.unannounced = true → b.tag = 0

/-- R3, R14, R16: no partner tag in THREADING or at position N; one in COUPLED and TAILING elsewhere. -/
abbrev PartnerLawful (s : State) : Prop :=
  ∀ b ∈ s.seq.bite, b.partner.isSome = (s.seq.stand != .threading && !s.atLast)

/-- R1, R16, R177: UNCONFIGURED until the link is given; at position N the stand is never THREADING or TAILING. -/
abbrev StandLawful (s : State) : Prop :=
  (s.ldr.phase ≠ .running → s.seq.stand = .unconfigured) ∧
  (s.seq.stand ≠ .unconfigured → s.atLast = true → s.seq.stand ≠ .threading ∧ s.seq.stand ≠ .tailing)

/-- The laws of the hand-off together: each keeps the others. -/
abbrev HandOffLawful (s : State) : Prop :=
  TableLawful s.store.table ∧ BiteLawful s.seq ∧ EnteredLawful s ∧ UnannouncedLawful s ∧ PartnerLawful s ∧ StandLawful s

/-! ### Looper (R52, R54, R57, R61) -/

/-- The looper is RAISING or TENSION. -/
def LooperState.raisedOrRaising : LooperState → Bool
  | .raising .. | .tension => true
  | .none | .parked | .lowering .. | .stalled .. => false

/-- The looper is TENSION or LOWERING. -/
def LooperState.tensionOrLowering : LooperState → Bool
  | .tension | .lowering .. => true
  | .none | .parked | .raising .. | .stalled .. => false

/-- R52: RAISING or TENSION only while COUPLED. R54: NONE at position N. R57: t is non-zero only in TENSION or LOWERING or
in HOLD. R177: UNCONFIGURED until the link is given. -/
abbrev LooperLawful (s : State) : Prop :=
  (s.ldr.phase ≠ .running → s.seq.stand = .unconfigured) ∧
  (s.lp.state.raisedOrRaising = true → s.seq.stand = .coupled) ∧
  (s.seq.stand ≠ .unconfigured → s.atLast = true → s.lp.state = .none) ∧
  (s.lp.trim ≠ 0 → s.lp.state.tensionOrLowering = true ∨ s.seq.stand = .hold)

/-- R52, R61: t within ±T_max and I within ±I_max. -/
abbrev TrimBounded (s : State) : Prop :=
  -(s.ldr.image.tMax : Int) ≤ s.lp.trim ∧ s.lp.trim ≤ s.ldr.image.tMax ∧
  -(s.ldr.image.iMax : Int) ≤ s.lp.integral ∧ s.lp.integral ≤ s.ldr.image.iMax

/-! ### Cascade (R76, R79) -/

/-- R76: every c lies within −200,000..+200,000 ppm. -/
abbrev FactorBounded (s : State) : Prop := -200000 ≤ s.cas.factor ∧ s.cas.factor ≤ 200000

/-- R71, R79: the reference lies within v_min..v_max, or is 0 until the first speed period expiry; it is 0 in
UNCONFIGURED. R177: UNCONFIGURED until the link is given. -/
abbrev ReferenceLawful (s : State) : Prop :=
  (s.ldr.phase ≠ .running → s.seq.stand = .unconfigured) ∧
  (s.seq.stand = .unconfigured → s.cas.reference = 0) ∧
  (s.seq.stand ≠ .unconfigured → s.ldr.image.vMin < s.ldr.image.vMax ∧
    (s.cas.reference = 0 ∨ s.ldr.image.vMin ≤ s.cas.reference ∧ s.cas.reference ≤ s.ldr.image.vMax))

/-! ### Hold (R25, R131) and sensing (R111, R116, R125, R126) -/

/-- R25, R132: an active filtered line finds the stand in HOLD or UNCONFIGURED. R131: no qualification and no timer while
it is active, and not both at once. R27: HOLD ends once the release is qualified and the detector UNLOADED. R30, R126: no
marker, bite or drill in HOLD. R177: released while the pin is low. -/
abbrev HoldLawful (s : State) : Prop :=
  (s.ldr.phase = .held → s.hold.filtered = false ∧ s.hold.qualified = false) ∧
  (s.hold.filtered = true → s.seq.stand = .hold ∨ s.seq.stand = .unconfigured) ∧
  (s.hold.filtered = true → s.hold.qualified = false ∧ s.hold.timer = none) ∧
  (s.hold.qualified = true → s.hold.timer = none) ∧
  (s.seq.stand = .hold → ¬(s.hold.qualified = true ∧ s.sens.loaded = false)) ∧
  (s.seq.stand = .hold → s.trk.markers = [] ∧ s.seq.bite = none ∧ s.sens.drill = none)

/-- R116: no run while stale. R125: UNLOADED and no run in the blocking phase. R111: UNLOADED and no run while
UNCONFIGURED; R2: no bite there. -/
abbrev SensingLawful (s : State) : Prop :=
  (s.sens.forceStale = true → s.sens.run = none) ∧
  (s.sens.drill = some .blocking → s.sens.loaded = false ∧ s.sens.run = none) ∧
  (s.seq.stand = .unconfigured → s.seq.bite = none ∧ s.sens.loaded = false ∧ s.sens.run = none)

/-! ### Transmit Queue (R158) and Error Confinement (R169, R170) -/

/-- How many slots p admits. -/
def countSlots (p : Slot → Bool) (v : Slots) : Nat := v.toList.countP (holds p)

/-- The slot of the attempt in progress is the one in transmission; without an attempt none is. -/
abbrev AttemptLawful (s : State) : Prop :=
  (∀ a ∈ s.link.attempt, holds Slot.inTransmission s.txq.slots[a.slot] = true) ∧
  countSlots Slot.inTransmission s.txq.slots = s.link.attempt.toList.length

/-- R158: at most one slot in transmission, at most one CASCADE and one STATUS pending; attempt counts 0..2; the cleared mark
only while in transmission. -/
abbrev SlotsLawful (v : Slots) : Prop :=
  countSlots Slot.inTransmission v ≤ 1 ∧ countSlots (pendingOfKind .cascade) v ≤ 1 ∧
  countSlots (pendingOfKind .status) v ≤ 1 ∧
  countSlots (fun x => decide (2 < x.attempts) || (x.cleared && !x.inTransmission)) v = 0

/-- R175: no frame stands in a slot of a JOINING or OFF-LINK station. The link state is JOINING until the link is given
(log entry 31). -/
abbrev SilentLawful (s : State) : Prop :=
  (s.ldr.phase ≠ .running → s.ec.link = .joining) ∧ (s.ec.link.sends = false → s.txq.slots = freeSlots)

/-- The laws of the Transmit Queue together. -/
abbrev QueueLawful (s : State) : Prop :=
  SlotsLawful s.txq.slots ∧ AttemptLawful s ∧ SilentLawful s

/-- R169: REC, the dropped and the stray counts within 0..255; TEC at most 207, and below 200 outside OFF-LINK.
R170: outside JOINING and OFF-LINK the state is what the counts give. -/
abbrev ErrorsLawful (e : ErrorConfinement) : Prop :=
  e.txErrors ≤ 207 ∧ e.rxErrors ≤ 255 ∧ e.dropped ≤ 255 ∧ e.stray ≤ 255 ∧
  (e.link ≠ .offLink → e.txErrors < 200) ∧
  (e.link.sends = true → e.link = linkByCounts e.txErrors e.rxErrors)

/-! ### The words of the statements -/

/-- The reset pin is not held low. -/
abbrev OutOfReset (s : State) : Prop := s.ldr.phase ≠ .held

/-- The station hears the line: the link has been given to it, and it is not sending. -/
abbrev Attends (s : State) : Prop := s.ldr.phase = .running ∧ s.link.attempt = none

/-- The station hears the line and has found no error in the frame being received (R150). -/
abbrev Listens (s : State) : Prop := Attends s ∧ ∀ r ∈ s.link.reception, r.error = false

/-- A configured, listening station whose acceptance table gives a frame of this kind and sender this role. -/
abbrev Delivers (s : State) (k : FrameKind) (sender : BitVec 5) (role : Role) : Prop :=
  Listens s ∧ s.seq.stand ≠ .unconfigured ∧ s.roleOf k sender = some role

/-- The station after a frame that ended clean, before the frame has its effect. -/
abbrev Heard (s : State) (fin : FrameEnd) : State := receiveClean fin.marker (s.setClock fin.now)

/-- A roll-force sample is evaluated: out of reset, configured, the input fresh, the detector not blocked by the drill. -/
abbrev Evaluates (s : State) : Prop :=
  OutOfReset s ∧ s.seq.stand ≠ .unconfigured ∧ s.sens.forceStale = false ∧ s.sens.drill ≠ some .blocking

/-- The length of the qualifying run with one more sample. -/
def runLength (s : State) : Nat := (s.sens.run.map Run.length).getD 0 + 1

/-- The arrival instant of the first sample of the run, this sample's own when it starts the run. -/
def runFirst (s : State) (now : Instant) : Instant := (s.sens.run.map Run.first).getD now

/-- A sample on the far side of the threshold: F_on from below while UNLOADED, F_off from above while LOADED. -/
abbrev FarSide (s : State) (force : Nat) : Prop :=
  if s.sens.loaded then min force 40000 < s.ldr.image.fOff else s.ldr.image.fOn ≤ min force 40000

/-- A sample decides a load-on (R113). -/
abbrev DecidesLoadOn (s : State) (force : Nat) : Prop :=
  Evaluates s ∧ s.sens.loaded = false ∧ FarSide s force ∧ samplesNeeded s.sens.speed ≤ runLength s

/-- A sample decides a load-off (R114). -/
abbrev DecidesLoadOff (s : State) (force : Nat) : Prop :=
  Evaluates s ∧ s.sens.loaded = true ∧ FarSide s force ∧ samplesNeeded s.sens.speed ≤ runLength s

/-- R42, R43: the marker list as a tracking expiry moves and clamps it. -/
abbrev movedMarkers (s : State) : List Marker := clampOrder (advanceMarkers s s.trk.markers)

/-- R46, R48: what of the moved list stays: the markers no further past the stand than W. -/
abbrev leftMarkers (s : State) : List Marker := (movedMarkers s).filter fun m => decide (-s.window ≤ m.distance)

/-- R46: the heads missed at a tracking expiry, front to back. -/
abbrev missedHeads (s : State) : List Marker :=
  (movedMarkers s).filter fun m => m.kind == .head && decide (m.distance < -s.window)

/-- R41: at a tracking expiry the lookup of some marker's tag is substituted. -/
abbrev substitutesMarker (s : State) : Bool := s.trk.markers.any fun m => (s.lookup m.tag).substituted

/-- R48: a tail is overdue at a tracking expiry. -/
abbrev tailOverdue (s : State) : Bool :=
  (movedMarkers s).any fun m => m.kind == .tail && decide (m.distance < -s.window)

/-- R45: the front head left stands at W or less. -/
abbrev nearHead (s : State) : Bool :=
  ((leftMarkers s).find? fun m => m.kind == .head).any fun m => decide (m.distance ≤ s.window)

/-- R17, R47: the stand acts on a tail lead: COUPLED before position N, and the first tail left of the bite's tag stands at
L_low of the bite's schedule or less. -/
abbrev leadsTail (s : State) : Bool :=
  s.seq.stand == .coupled && !s.atLast && s.seq.bite.any fun b =>
    ((leftMarkers s).find? fun m => m.kind == .tail && m.tag == b.tag).any fun m =>
      decide (m.distance ≤ ((s.lookup b.tag).values.lLow : Int) * 1000)

/-- R56: the looper after LOWER with an operation tag. -/
abbrev loweredLooper (s : State) (tag : Tag) : Looper :=
  match s.lp.state with
  | .raising .. | .tension | .stalled .. => { s.lp with state := .lowering 0 tag, integral := 0 }
  | .none | .parked | .lowering .. => s.lp

/-- R57: the looper after hold exit. -/
abbrev looperAfterHold (s : State) : Looper :=
  match s.lp.state with
  | .stalled .. => { s.lp with state := .lowering 0 0, integral := 0, trim := 0 }
  | .none | .parked | .raising .. | .tension | .lowering .. => { s.lp with trim := 0 }

/-- R22, R137: the alarms of missed heads, the first with the previous kind as it stood. -/
def missAlarms (s : State) : List Marker → List TxFrame
  | [] => []
  | m :: rest => .alarm .threadMiss s.rep.lastAlarm m.tag (missDetail m.distance) ::
      rest.map fun x => .alarm .threadMiss (some .threadMiss) x.tag (missDetail x.distance)

/-- R49: the front head left stands at 0 or below, with the stand waiting for it (R6). -/
abbrev HeadCrosses (s : State) (m : Marker) : Prop :=
  (s.seq.stand = .empty ∨ s.seq.stand = .awaiting) ∧
  (leftMarkers s).find? (fun x => x.kind == .head) = some m ∧ m.distance ≤ 0

/-- R49: the first tail left of the bite's tag stands at 0 or below. -/
abbrev TailCrosses (s : State) (b : Bite) (m : Marker) : Prop :=
  s.seq.stand.biting = true ∧ s.seq.bite = some b ∧
  (leftMarkers s).find? (fun x => x.kind == .tail && x.tag == b.tag) = some m ∧ m.distance ≤ 0

/-- R49, R117: the expiry predicts no load event: force samples arrive, or no crossing is taken. -/
abbrev PredictsNothing (s : State) : Prop :=
  s.sens.forceStale = true → (∀ m, ¬HeadCrosses s m) ∧ ∀ b m, ¬TailCrosses s b m

/-- The Transmit Queue and its counts in t are those of s after these offers, first to last. -/
abbrev Offers (s t : State) (frames : List TxFrame) : Prop :=
  t.txq = (frames.foldl (fun u f => offer f u) s).txq ∧ t.ec = (frames.foldl (fun u f => offer f u) s).ec

/-- Between s and t the sticky flags of which p holds were set, with this instant, and every other kept its mark. -/
abbrev SetsFlags (s t : State) (now : Instant) (p : StickyFlag → Bool) : Prop :=
  ∀ f, if p f then (t.stickyMark f).map Mark.instant = some now else t.stickyMark f = s.stickyMark f

/-- The last alarm kind and the status frame period are kept. -/
abbrev KeepsReports (s t : State) : Prop := t.rep.lastAlarm = s.rep.lastAlarm ∧ t.rep.periodFrom = s.rep.periodFrom

/-- R157: the place of the last bit of the check word in the frame of an attempt, counting the start bit as 1. -/
abbrev checkWordEnd (s : State) (a : Attempt) : Nat :=
  36 + 9 * ((s.txq.slots[a.slot].map fun x => x.frame.kind.length.toNat).getD 0)

/-- R157: at this reading the drill is armed and the last bit of the complemented check word has been sent. -/
abbrev flawSentBy (s : State) (now : Instant) : Bool :=
  s.link.flawArmed && s.link.attempt.any fun a => a.flawed &&
    decide (checkWordEnd s a ≤ if a.breaking then a.bits else a.bits + elapsed now a.bitsAt / bitTime s.ldr.rateCode)

/-- R157: the reading at which the last bit of the check word has been sent: the bits of the attempt are whole bits, 0 of them at
the beginning of the start bit (R145; log entry 19). -/
abbrev checkWordSentAt (s : State) (a : Attempt) : Instant :=
  a.bitsAt + BitVec.ofNat 32 (checkWordEnd s a * bitTime s.ldr.rateCode) - BitVec.ofNat 32 (a.bits * bitTime s.ldr.rateCode)

/-- The end, the kind and the sender of the frame that a command delivers. FRAME_IGNORED and STRAY_FRAME are left out: they name the
fate of their frame themselves. -/
def frameOf : Instr → Option (FrameEnd × FrameKind × BitVec 5)
  | .upstreamHeadOn fin b _ _ | .downstreamHeadOn fin b _ _ => some (fin, .headOn, b)
  | .upstreamTailOff fin b _ _ | .downstreamTailOff fin b _ _ => some (fin, .tailOff, b)
  | .cascadeDelivered fin b _ _ _ _ => some (fin, .cascade, b)
  | .alarmReceived fin b => some (fin, .alarm, b)
  | .statusReceived fin b => some (fin, .status, b)
  | .setupFields fin b _ _ => some (fin, .setupFields, b)
  | .setupClose fin b _ => some (fin, .setupClose, b)
  | .setupCancel fin b _ => some (fin, .setupCancel, b)
  | .setupClear fin b => some (fin, .setupClear, b)
  | .release fin b => some (fin, .release, b)
  | .restart fin b _ => some (fin, .restart, b)
  | .drill fin b _ _ => some (fin, .drill, b)
  | .pinReset .. | .resetRelease .. | .configReadDone .. | .configReadTimeout .. | .forceSample .. | .forceStale ..
  | .speedFeedbackSample .. | .speedFeedbackStale .. | .angleSample .. | .angleStale .. | .hotMetalEdge ..
  | .trackingExpiry .. | .looperPeriodExpiry .. | .raiseTimeout .. | .lowerTimeout .. | .speedPeriodExpiry ..
  | .viewStale .. | .impactEnd .. | .cascadeFramePeriod .. | .statusFramePeriod .. | .noticeAgeTick ..
  | .holdLineActive .. | .holdLineReleased .. | .releaseQualified .. | .malformedFrame .. | .receiveError ..
  | .frameRejected .. | .lineIdle .. | .contestStart .. | .arbitrationLost .. | .bitError .. | .attemptFailed ..
  | .attemptSucceeded .. | .joiningEnd .. | .offLinkRecovery .. | .hotMetalReading .. | .holdLineChange ..
  | .frameStart .. | .frameIgnored .. | .strayFrame .. | .offLinkIdleSpan .. => none

/-- R165: the frame is ignored: a CLOSED entry, no entry, or an UNCONFIGURED station, but for the RESTART of a sender
24..31 (R180). -/
abbrev FrameIgnored (s : State) (kind : FrameKind) (sender : BitVec 5) : Prop :=
  (s.seq.stand ≠ .unconfigured ∧ (s.roleOf kind sender = none ∨ s.roleOf kind sender = some .closed)) ∨
  (s.seq.stand = .unconfigured ∧ (kind ≠ .restart ∨ sender.toNat < 24))

/-- R15, R167: the frame is stray. -/
abbrev FrameStray (s : State) (kind : FrameKind) (sender : BitVec 5) : Prop :=
  s.seq.stand ≠ .unconfigured ∧
  ((s.roleOf kind sender = some .setup ∧ kind ∈ [.headOn, .tailOff, .cascade, .alarm, .status]) ∨
   ((s.roleOf kind sender = some .upstream ∨ s.roleOf kind sender = some .downstream) ∧
      kind ∈ [.setupFields, .setupClose, .setupCancel, .setupClear, .release, .restart, .drill]) ∨
   (s.roleOf kind sender = some .upstream ∧ s.atFirst = true ∧ kind ∈ [.headOn, .tailOff]) ∨
   (s.roleOf kind sender = some .downstream ∧ kind = .headOn ∧ s.seq.stand ≠ .threading))

/-- The stray-frame count one higher, saturating at 255 (R168). -/
def countedStray (s : State) : State :=
  s.setEc { s.ec with stray := if 255 < s.ec.stray + 1 then 255 else s.ec.stray + 1 }

/-- Nothing but the clock moves. -/
abbrev OnlyClock (c : Instr) (s : State) : Prop := exec c s = .next (s.setClock c.now)

/-! ### Frames of a meaning -/

/-- Nothing of the stand's side changes: Sequencer, Tracking, Looper, Cascade, Schedules, Sensing, Hold, configuration. -/
abbrev SameStand (s t : State) : Prop :=
  t.ldr = s.ldr ∧ t.seq = s.seq ∧ t.trk = s.trk ∧ t.lp = s.lp ∧ t.cas = s.cas ∧ t.store = s.store ∧ t.sens = s.sens ∧
  t.hold = s.hold

/-- Nothing of the link's side changes: Link Controller, Transmit Queue, Error Confinement, Status Reporter. -/
abbrev SameLink (s t : State) : Prop :=
  t.link = s.link ∧ t.txq = s.txq ∧ t.ec = s.ec ∧ t.rep = s.rep

/-- The queue and the free values drawn stay as they are. -/
abbrev SameQueue (s t : State) : Prop := t.pending = s.pending ∧ t.draws = s.draws

end Sys2Proof.Machine
end

