-- ==== Sys2Proof/Certificates/Slice0/Obligations.lean ====
section
/-! DEFINITION. The statements for the provers, one `Obligations.<Name>` each; OBLIGATIONS.json lists them. Where a
statement's next state is written as updates of the state before, every part not named is unchanged. -/

section
open Sys2Proof Sys2Proof.Machine

/-! ### The machine -/

/-- A step runs the command at the front of the queue on the state with the rest of the queue. On an empty queue the clock
counts on (the model's choice, log entry 2). -/
def Obligations.StepTakesFrontCommand : Prop :=
  (∀ (c : Instr) (rest : List Instr) (s : State), s.pending = c :: rest → step s = exec c (s.setPending rest)) ∧
  ∀ s : State, s.pending = [] → step s = .next (s.setClock (s.clock + 1))

/-- No command stops the machine; each leaves the rest of the queue, and the clock at the reading it was taken at (log
entry 1). -/
def Obligations.EveryCommandAnswers : Prop :=
  ∀ (c : Instr) (s : State), ∃ t, exec c s = .next t ∧ t.pending = s.pending ∧ t.clock = c.now

/-- After reset every law holds. -/
def Obligations.ResetIsLawful : Prop :=
  MarkersLawful State.reset.trk.markers ∧ HandOffLawful State.reset ∧ LooperLawful State.reset ∧
  TrimBounded State.reset ∧ FactorBounded State.reset ∧ ReferenceLawful State.reset ∧ HoldLawful State.reset ∧
  SensingLawful State.reset ∧ QueueLawful State.reset ∧ ErrorsLawful State.reset.ec

/-! ### The laws of the device, kept by every step -/

/-- R29: at most 8 markers, in order of distance. -/
def Obligations.MarkersStayOrdered : Prop :=
  ∀ s t : State, MarkersLawful s.trk.markers → step s = .next t → MarkersLawful t.trk.markers

/-- R3, R4, R16, R91: bite, stand state, partner and schedule table agree. -/
def Obligations.HandOffStaysLawful : Prop :=
  ∀ s t : State, HandOffLawful s → step s = .next t → HandOffLawful t

/-- R52, R54, R57: which looper states and trims go with which stand states.

R52, R61: I and t within their limits. -/
def Obligations.LooperStaysLawful : Prop :=
  (∀ s t : State, LooperLawful s → step s = .next t → LooperLawful t) ∧
  ∀ s t : State, TrimBounded s → step s = .next t → TrimBounded t

/-- R76, R79: c and the speed reference within their limits. -/
def Obligations.CascadeStaysBounded : Prop :=
  ∀ s t : State, FactorBounded s ∧ ReferenceLawful s → step s = .next t → FactorBounded t ∧ ReferenceLawful t

/-- R25, R27, R131: the hold line, the release qualification and HOLD agree. -/
def Obligations.HoldStaysLawful : Prop :=
  ∀ s t : State, HoldLawful s → step s = .next t → HoldLawful t

/-- R111, R116, R125: detector, run, staleness and drill agree. -/
def Obligations.SensingStaysLawful : Prop :=
  ∀ s t : State, SensingLawful s → step s = .next t → SensingLawful t

/-- R158, R160, R175: the transmit slots and the attempt agree. -/
def Obligations.QueueStaysLawful : Prop :=
  ∀ s t : State, QueueLawful s → step s = .next t → QueueLawful t

/-- R164, R168, R169, R170: the counts within their ranges, the link state as they give. The premise on the queue, kept by
every step too (QueueStaysLawful), says that the link state is JOINING before the link is given (log entry 31). -/
def Obligations.ErrorCountsStayBounded : Prop :=
  ∀ s t : State, QueueLawful s → ErrorsLawful s.ec → step s = .next t → ErrorsLawful t.ec

/-! ### Reset and start-up -/

/-- R177 and the reset row of every block. The clock, the queue and the wire of the hold line are the model's (log entries
9, 11), and so are the values of the fields to which no rule gives a reset value (log entry 10); between 2 and 10 µs the
outcome is free, and whole (log entry 13).

R141: the recessive count is 0 after it, and stands until the link is given (held by the clock: log entry 19).

R176: the straps are read once, at the release. At positions 2..N the hot-metal input is not read (R119). That the release
qualification timer starts again at the release of the pin (log entry 43), and that a RESET_RELEASE out of reset moves only
the clock (log entry 4), are the model's choices. -/
def Obligations.ResetAndRelease : Prop :=
  (∀ (s : State) (now : Instant),
    let reset := { State.reset with
      pending := s.pending, clock := now, draws := s.draws
      hold := { filtered := false, ownDrive := false, timer := some now, qualified := false, others := s.hold.others,
                lineAt := now } }
    (∀ later, (reset.setClock later).recessiveBits = 0) ∧
    (s.ldr.phase ≠ .running → (s.setClock now).recessiveBits = s.link.recessive) ∧
    exec (.pinReset now .powerOn) s = .next reset ∧
    (∀ us, 10 ≤ us → exec (.pinReset now (.low us)) s = .next reset) ∧
    (∀ us, us < 2 → exec (.pinReset now (.low us)) s = .next (s.setClock now)) ∧
    (∀ us, 2 ≤ us → us < 10 →
      exec (.pinReset now (.low us)) s = .next (reset.setDraws (s.draws + 1)) ∨
      exec (.pinReset now (.low us)) s = .next ((s.setClock now).setDraws (s.draws + 1)))) ∧
  ∀ (s : State) (now : Instant) (position : BitVec 3) (rate : BitVec 2) (commissioning : Bool),
    (s.ldr.phase = .held → ∃ t, exec (.resetRelease now position rate commissioning) s = .next t ∧
      t.position = position.toNat + 1 ∧
      t.ldr = { phase := .reading, releasedAt := now, positionCode := position, rateCode := rate,
                commissioning := commissioning, image := s.ldr.image } ∧
      t.hold = { s.hold with timer := some now, lineAt := now } ∧
      t.sens = { s.sens with hotLevel := if position = 0 then none else some false } ∧
      t.seq = s.seq ∧ t.trk = s.trk ∧ t.lp = s.lp ∧ t.cas = s.cas ∧ t.store = s.store ∧ SameLink s t ∧ SameQueue s t) ∧
    (s.ldr.phase ≠ .held → OnlyClock (.resetRelease now position rate commissioning) s)

/-- R178: the items of the image by their bytes, and what makes it good: its 101 bytes, the check, the two code ranges, the
ranges of the items, and h in range and strictly decreasing. Without a table it takes that of R166.

R178, R179, R53, R89, R141, R171: a good image read within 20 ms. If the filtered hold line is active the stand joins the hold
at once (R132).

R178, R179: a bad image, a late one, or none by 20 ms: the station stays UNCONFIGURED and is given the link.

The model's choices: what makes an image good beyond the words of R178, and that a read ended at exactly 20 ms is in time
(log entry 30); that both commands move only the clock outside the reading phase (log entry 4). -/
def Obligations.StartUpEnds : Prop :=
  (∀ (position : Nat) (bytes : List Byte),
    let byte := fun k : Nat => (bytes.getD k 0).toNat
    let word := fun k : Nat => byte k * 256 + byte (k + 1)
    let bounded := fun (lo hi x : Nat) => max lo (min hi x)
    let i := parseImage position bytes
    (i.n = byte 0 ∧ i.dUp = word 1 ∧ i.dEntry = word 3 ∧ i.vMin = word 5 ∧ i.vMax = word 7 ∧ i.fOff = word 9 ∧
      i.fOn = word 11 ∧ i.thetaRest = word 13 ∧ i.band = word 15 ∧ i.rateUp = byte 17 ∧ i.rateDown = byte 18 ∧
      i.raiseTimeout = word 19 ∧ i.lowerTimeout = word 21 ∧ i.tMax = word 23 ∧ i.iMax = word 25 ∧ i.window = byte 27) ∧
    i.accept = (if byte 28 = 1 then
        [29, 34, 39, 44].map fun k : Nat =>
          { bits := BitVec.ofNat 12 (word k), mask := BitVec.ofNat 12 (word (k + 2))
            role := match byte (k + 4) with | 1 => .upstream | 2 => .downstream | 3 => .setup | _ => .closed }
      else defaultAccept position (byte 0)) ∧
    (i.defaults.vTop = bounded 1000 25000 (word 49) ∧
      (∀ (k : Nat) (h : k < 9), i.defaults.h[k] = word (51 + 2 * k)) ∧
      (∀ (k : Nat) (h : k < 8), i.defaults.f[k] = bounded 0 150 (byte (69 + k))) ∧
      (∀ (k : Nat) (h : k < 7), i.defaults.theta[k] = bounded 500 6000 (word (77 + 2 * k))) ∧
      i.defaults.kp = bounded 0 200 (byte 91) ∧ i.defaults.ki = bounded 0 50 (byte 92) ∧
      i.defaults.boost = bounded 0 50000 (word 93) ∧ i.defaults.impactTime = bounded 0 500 (word 95) ∧
      i.defaults.lLow = bounded 200 5000 (word 97)) ∧
    (imageGood position bytes = true ↔
      bytes.length = 101 ∧ (crc (bytes.take 99)).toNat = word 99 ∧ byte 28 ≤ 1 ∧
      (byte 33 ≤ 3 ∧ byte 38 ≤ 3 ∧ byte 43 ≤ 3 ∧ byte 48 ≤ 3) ∧
      (2 ≤ i.n ∧ i.n ≤ 8 ∧ position ≤ i.n) ∧ (position ≠ 1 → 3000 ≤ i.dUp ∧ i.dUp ≤ 8000) ∧
      (position = 1 → 1000 ≤ i.dEntry ∧ i.dEntry ≤ 20000) ∧ (i.vMin < i.vMax ∧ i.vMax ≤ 25000) ∧
      (100 ≤ i.fOff ∧ i.fOff < i.fOn ∧ i.fOn ≤ 40000) ∧ i.thetaRest ≤ 3000 ∧ (10 ≤ i.band ∧ i.band ≤ 300) ∧
      (1 ≤ i.rateUp ∧ i.rateUp ≤ 100 ∧ 1 ≤ i.rateDown ∧ i.rateDown ≤ 100) ∧
      (100 ≤ i.raiseTimeout ∧ i.raiseTimeout ≤ 2000 ∧ 100 ≤ i.lowerTimeout ∧ i.lowerTimeout ≤ 2000) ∧
      (1000 ≤ i.tMax ∧ i.tMax ≤ 60000) ∧ i.iMax ≤ i.tMax ∧ i.window ≤ 7 ∧
      (∀ (k : Nat) (h : k < 9), 500 ≤ i.defaults.h[k] ∧ i.defaults.h[k] ≤ 65000) ∧
      ∀ (k : Nat) (h : k < 8), k < i.n → i.defaults.h[k + 1] < i.defaults.h[k])) ∧
  (∀ (s : State) (now : Instant) (bytes : List Byte),
    let image := parseImage s.position bytes
    s.ldr.phase = .reading → imageGood s.position bytes = true → elapsed now s.ldr.releasedAt ≤ 20000 →
    ∃ t, exec (.configReadDone now bytes) s = .next t ∧
      t.ldr = { s.ldr with phase := .running, image := image } ∧
      t.seq = { stand := if s.hold.filtered then .hold else .empty, bite := none } ∧
      t.lp = { state := if s.position = image.n then .none else .parked, command := image.thetaRest, integral := 0,
               trim := 0 } ∧
      t.store.staging = image.defaults ∧
      t.cas = { s.cas with periodFrom := some now } ∧
      t.ec = { s.ec with link := .joining, joinBits := 0, joinAt := now } ∧
      t.rep = { s.rep with periodFrom := some now } ∧
      t.hold = s.hold ∧ t.link = { s.link with recessiveAt := now } ∧ SameQueue s t ∧
      (s.hold.filtered = false → t.trk = s.trk ∧ t.store.table = s.store.table ∧ t.sens = s.sens ∧ t.txq = s.txq)) ∧
  ∀ (s : State) (now : Instant) (bytes : List Byte),
    let given := ((((s.setClock now).setLdr { s.ldr with phase := .running }).setLink
      { s.link with recessiveAt := now }).setEc
      { s.ec with link := .joining, joinBits := 0, joinAt := now }).setRep { s.rep with periodFrom := some now }
    (s.ldr.phase = .reading → (imageGood s.position bytes = false ∨ 20000 < elapsed now s.ldr.releasedAt) →
      exec (.configReadDone now bytes) s = .next given) ∧
    (s.ldr.phase = .reading → 20000 ≤ elapsed now s.ldr.releasedAt → exec (.configReadTimeout now) s = .next given) ∧
    (s.ldr.phase ≠ .reading → OnlyClock (.configReadDone now bytes) s ∧ OnlyClock (.configReadTimeout now) s)

/-! ### Stand Sensing -/

/-- R121: the holders keep the last sample, which makes them fresh; an angle above 9,000 is taken as 9,000. Nothing is
sampled while the reset pin is low (the model's choice, log entry 12). -/
def Obligations.FeedbackSamplesAreHeld : Prop :=
  ∀ (s : State) (now : Instant) (speed : BitVec 16) (angle : Nat),
    (OutOfReset s →
      exec (.speedFeedbackSample now speed) s =
        .next ((s.setClock now).setSens { s.sens with speed := speed.toNat, speedStale := false, speedAt := now }) ∧
      exec (.angleSample now angle) s =
        .next ((s.setClock now).setSens
          { s.sens with angle := some (if 9000 < angle then 9000 else angle), angleStale := false, angleAt := now })) ∧
    (s.ldr.phase = .held → OnlyClock (.speedFeedbackSample now speed) s ∧ OnlyClock (.angleSample now angle) s)

/-- R110, R116, R121, R122: the silence of an input makes it stale; the run of the detector ends, its state is kept; with a
bite or a head marker SENSOR-LOST is raised, with the bite's tag or else the front head marker's. -/
def Obligations.SilenceMakesStale : Prop :=
  ∀ (s : State) (now : Instant),
    let alarmed := fun (detail : BitVec 16) (u : State) =>
      match s.seq.bite, s.trk.markers.find? (fun m => m.kind == .head) with
      | some b, _ => raiseAlarm .sensorLost b.tag detail u
      | none, some m => raiseAlarm .sensorLost m.tag detail u
      | none, none => u
    OutOfReset s →
    (s.sens.forceStale = false → 2000 ≤ elapsed now s.sens.forceAt →
      exec (.forceStale now) s =
        .next (alarmed 1 ((s.setClock now).setSens { s.sens with forceStale := true, run := none }))) ∧
    (s.sens.angleStale = false → 5000 ≤ elapsed now s.sens.angleAt →
      exec (.angleStale now) s = .next (alarmed 2 ((s.setClock now).setSens { s.sens with angleStale := true }))) ∧
    (s.sens.speedStale = false → 5000 ≤ elapsed now s.sens.speedAt →
      exec (.speedFeedbackStale now) s = .next (alarmed 3 ((s.setClock now).setSens { s.sens with speedStale := true })))

/-- R136 to R138: raising an alarm offers its frame, with the previous kind, and records its kind even when the frame is not
taken.

R24: the detail of a THREAD-MISS is the distance in mm, to the nearest with ties away from zero, within 16 bits. -/
def Obligations.AlarmsAndTheirDetail : Prop :=
  (∀ (s : State) (kind : AlarmKind) (tag : Tag) (detail : BitVec 16),
    let t := raiseAlarm kind tag detail s
    Offers s t [.alarm kind s.rep.lastAlarm tag detail] ∧ t.rep = { s.rep with lastAlarm := some kind } ∧
    (TxFrame.alarm kind s.rep.lastAlarm tag detail).data 0 =
      [alarmCode (some kind) ++ alarmCode s.rep.lastAlarm, tag, detail.extractLsb' 8 8, detail.extractLsb' 0 8] ∧
    SameStand s t ∧ t.link = s.link ∧ SameQueue s t ∧ t.clock = s.clock) ∧
  ∀ d : Int,
    (∀ k : Int, -32768 < k → k < 32767 → 2 * d < 2 * 1000 * k + 1000 → 2 * 1000 * k - 1000 < 2 * d →
      (missDetail d).toInt = k) ∧
    (∀ k : Int, 0 ≤ k → k < 32767 → d = 1000 * k + 500 → (missDetail d).toInt = k + 1) ∧
    (∀ k : Int, k ≤ 0 → -32768 < k → d = 1000 * k - 500 → (missDetail d).toInt = k - 1) ∧
    (d ≤ -32768000 → (missDetail d).toInt = -32768) ∧ (32767000 ≤ d → (missDetail d).toInt = 32767)

/-- R112 to R114, R125: a sample that decides nothing. On the far side it lengthens the run by one, on the near side it ends
the run, and in the blocking phase of the drill the only effect is the end of that phase below F_off. -/
def Obligations.SampleGrowsOrEndsRun : Prop :=
  ∀ (s : State) (now : Instant) (force : Nat),
    (Evaluates s → FarSide s force → runLength s < samplesNeeded s.sens.speed →
      exec (.forceSample now force) s = .next ((s.setClock now).setSens
        { s.sens with forceAt := now, run := some { length := runLength s, first := runFirst s now } })) ∧
    (Evaluates s → ¬FarSide s force →
      exec (.forceSample now force) s = .next ((s.setClock now).setSens { s.sens with forceAt := now, run := none })) ∧
    (OutOfReset s → s.seq.stand ≠ .unconfigured → s.sens.forceStale = false → s.sens.drill = some .blocking →
      exec (.forceSample now force) s = .next ((s.setClock now).setSens
        { s.sens with forceAt := now
                      drill := if min force 40000 < s.ldr.image.fOff then none else some .blocking }))

/-- R5, R7, R8, R10, R12, R16: a decided load-on with a head marker; at position 1 a head of tag 0 too, where every WAITING
record's tag is on a marker. -/
def Obligations.LoadOnOpensBite : Prop :=
  ∀ (s : State) (now : Instant) (force : Nat) (m : Marker),
    DecidesLoadOn s force → s.sens.drill = none → (s.seq.stand = .empty ∨ s.seq.stand = .awaiting) →
    s.trk.markers.find? (fun m => m.kind == .head) = some m →
    (s.atFirst = true → m.tag ≠ 0 ∨
      s.store.table.find? (fun r => r.state == .waiting && !(s.trk.markers.any fun m => m.tag == r.tag)) = none) →
    ∃ t, exec (.forceSample now force) s = .next t ∧
      t.seq.stand = (if s.atLast then .coupled else .threading) ∧
      t.seq.bite = some
        { tag := m.tag, unannounced := false, early := s.seq.stand == .empty,
          substituted := (findRecord s.store.table m.tag).isNone, predicted := false, partner := none,
          impact := if 0 < (s.lookup m.tag).values.impactTime then
              some { elapsed := 0, boost := (s.lookup m.tag).values.boost } else none } ∧
      t.trk = { s.trk with markers := s.trk.markers.eraseP fun m => m.kind == .head } ∧
      t.store = { s.store with table := if m.tag = 0 then s.store.table else enterRecord m.tag s.store.table } ∧
      t.sens = { s.sens with forceAt := now, loaded := true, run := none } ∧
      Offers (s.setClock now) t [.headOn m.tag (runFirst s now)] ∧
      SetsFlags s t now (fun f =>
        (f == .early && s.seq.stand == .empty) || (f == .substituted && (findRecord s.store.table m.tag).isNone)) ∧
      KeepsReports s t ∧
      t.ldr = s.ldr ∧ t.lp = s.lp ∧ t.cas = s.cas ∧ t.hold = s.hold ∧ t.link = s.link ∧ SameQueue s t

/-- R9, R10: a decided load-on with no head marker, at positions 2..N, and at position 1 where every WAITING record's tag is on
a marker. -/
def Obligations.UnannouncedLoadOn : Prop :=
  ∀ (s : State) (now : Instant) (force : Nat),
    DecidesLoadOn s force → s.sens.drill = none → (s.seq.stand = .empty ∨ s.seq.stand = .awaiting) →
    s.trk.markers.find? (fun m => m.kind == .head) = none →
    (s.atFirst = false ∨
      s.store.table.find? (fun r => r.state == .waiting && !(s.trk.markers.any fun m => m.tag == r.tag)) = none) →
    ∃ t, exec (.forceSample now force) s = .next t ∧
      t.seq.stand = (if s.atLast then .coupled else .threading) ∧
      t.seq.bite = some
        { tag := 0, unannounced := true, early := false, substituted := true, predicted := false, partner := none,
          impact := if 0 < (s.lookup 0).values.impactTime then
              some { elapsed := 0, boost := (s.lookup 0).values.boost } else none } ∧
      t.trk = s.trk ∧ t.store = s.store ∧
      t.sens = { s.sens with forceAt := now, loaded := true, run := none } ∧
      Offers (s.setClock now) t [.alarm .unannouncedLoad s.rep.lastAlarm 0 0, .headOn 0 (runFirst s now)] ∧
      SetsFlags s t now (fun f => f == .unannounced || f == .substituted) ∧
      t.rep.lastAlarm = some .unannouncedLoad ∧ t.rep.periodFrom = s.rep.periodFrom ∧
      t.ldr = s.ldr ∧ t.lp = s.lp ∧ t.cas = s.cas ∧ t.hold = s.hold ∧ t.link = s.link ∧ SameQueue s t

/-- R10, R37: at position 1 a load-on that finds no head marker, or one of tag 0, binds the oldest WAITING record whose tag
no marker bears; the tag is carried back to the first TAIL marker of tag 0 and to the entry tag.

R37, R103: what the carrying back and the binding do to the two lists. -/
def Obligations.FirstStationBindsOldest : Prop :=
  (∀ (tag : Tag) (l : List Marker), (∀ x ∈ l, x.kind = .tail → x.tag ≠ 0) → nameTail tag l = l) ∧
  (∀ (tag : Tag) (ahead behind : List Marker) (m : Marker), (∀ x ∈ ahead, x.kind = .tail → x.tag ≠ 0) →
    m.kind = .tail → m.tag = 0 →
    nameTail tag (ahead ++ m :: behind) = ahead ++ { m with tag := tag } :: behind) ∧
  (∀ (tag : Tag) (table : List Record), (∀ r ∈ table, r.tag ≠ tag) → enterRecord tag table = table) ∧
  (∀ (tag : Tag) (older newer : List Record) (r : Record), r.tag = tag →
    (∀ x ∈ older, x.tag ≠ tag) → (∀ x ∈ newer, x.tag ≠ tag) →
    enterRecord tag (older ++ r :: newer) = older ++ { r with state := .entered } :: newer) ∧
  ∀ (s : State) (now : Instant) (force : Nat) (r : Record),
    DecidesLoadOn s force → s.sens.drill = none → (s.seq.stand = .empty ∨ s.seq.stand = .awaiting) →
    s.atFirst = true → (∀ m, s.trk.markers.find? (fun m => m.kind == .head) = some m → m.tag = 0) →
    s.store.table.find? (fun r => r.state == .waiting && !(s.trk.markers.any fun m => m.tag == r.tag)) = some r →
    r.tag ≠ 0 →
    ∃ t, exec (.forceSample now force) s = .next t ∧
      t.seq.stand = (if s.atLast then .coupled else .threading) ∧
      t.seq.bite = some
        { tag := r.tag, unannounced := false
          early := s.seq.stand == .empty && (s.trk.markers.find? (fun m => m.kind == .head)).isSome
          substituted := false, predicted := false, partner := none
          impact := if 0 < (s.lookup r.tag).values.impactTime then
              some { elapsed := 0, boost := (s.lookup r.tag).values.boost } else none } ∧
      t.trk = { markers := nameTail r.tag (s.trk.markers.eraseP fun m => m.kind == .head)
                entryTag := if s.trk.entryTag = 0 then r.tag else s.trk.entryTag } ∧
      t.store = { s.store with table := enterRecord r.tag s.store.table } ∧
      t.sens = { s.sens with forceAt := now, loaded := true, run := none } ∧
      Offers (s.setClock now) t [.headOn r.tag (runFirst s now)] ∧
      SetsFlags s t now (fun f =>
        f == .early && s.seq.stand == .empty && (s.trk.markers.find? (fun m => m.kind == .head)).isSome) ∧
      KeepsReports s t ∧
      t.ldr = s.ldr ∧ t.lp = s.lp ∧ t.cas = s.cas ∧ t.hold = s.hold ∧ t.link = s.link ∧ SameQueue s t

/-- R18 to R20, R104: a decided load-off ends the bite. In COUPLED before position N the looper is lowered and LATE-LOWER
set, in THREADING SHORT-PIECE is set.

R51: which TAIL marker goes: the first of the tag, else the first of any tag, else none. -/
def Obligations.LoadOffEndsBite : Prop :=
  (∀ (tag : Tag) (ahead behind : List Marker) (m : Marker), m.kind = .tail → m.tag = tag →
    (∀ x ∈ ahead, x.kind = .tail → x.tag ≠ tag) → removeTail tag (ahead ++ m :: behind) = ahead ++ behind) ∧
  (∀ (tag : Tag) (ahead behind : List Marker) (m : Marker), m.kind = .tail → (∀ x ∈ ahead, x.kind ≠ .tail) →
    (∀ x ∈ ahead ++ m :: behind, x.kind = .tail → x.tag ≠ tag) → removeTail tag (ahead ++ m :: behind) = ahead ++ behind) ∧
  (∀ (tag : Tag) (l : List Marker), (∀ x ∈ l, x.kind ≠ .tail) → removeTail tag l = l) ∧
  ∀ (s : State) (now : Instant) (force : Nat) (b : Bite),
    DecidesLoadOff s force → s.seq.stand.biting = true → s.seq.bite = some b →
    let late := s.seq.stand == .coupled && !s.atLast
    ∃ t, exec (.forceSample now force) s = .next t ∧
      t.seq = { stand := if s.trk.markers.any (fun m => m.kind == .head && m.windowOpen) then .awaiting else .empty
                bite := none } ∧
      t.trk = { s.trk with markers := removeTail b.tag s.trk.markers } ∧
      t.store = { s.store with table := s.store.table.filter fun r => r.state != .entered } ∧
      t.sens = { s.sens with forceAt := now, loaded := false, run := none } ∧
      t.lp = (if late then (lowerLooper b.tag (s.setLp { s.lp with trim := 0 })).lp else { s.lp with trim := 0 }) ∧
      Offers (s.setClock now) t [.tailOff b.tag (runFirst s now)] ∧
      SetsFlags s t now (fun f => (f == .lateLower && late) || (f == .shortPiece && s.seq.stand == .threading)) ∧
      KeepsReports s t ∧
      t.ldr = s.ldr ∧ t.cas = s.cas ∧ t.hold = s.hold ∧ t.link = s.link ∧ SameQueue s t

/-- R11, R21, R27, R57, R77: a decided load event that opens or ends no bite changes the detector only, but for the load-off
that ends a qualified hold: the stand is then EMPTY, t and c are 0, and a STALLED looper is lowering with tag 0.

R124, R125: the waiting SUPPRESS-LOAD-ON drill discards the next decided load-on. A FLAW-FRAME whose check word has gone out by
then has set DRILL-FIRED before (R157; log entry 34). -/
def Obligations.LoadEventsWithoutBite : Prop :=
  (∀ (s : State) (now : Instant) (force : Nat),
    (DecidesLoadOn s force → s.sens.drill = none →
      (s.seq.stand = .threading ∨ s.seq.stand = .coupled ∨ s.seq.stand = .tailing ∨ s.seq.stand = .hold) →
      exec (.forceSample now force) s =
        .next ((s.setClock now).setSens { s.sens with forceAt := now, loaded := true, run := none })) ∧
    (DecidesLoadOff s force →
      (s.seq.stand = .empty ∨ s.seq.stand = .awaiting ∨ (s.seq.stand = .hold ∧ s.hold.qualified = false)) →
      exec (.forceSample now force) s =
        .next ((s.setClock now).setSens { s.sens with forceAt := now, loaded := false, run := none })) ∧
    (DecidesLoadOff s force → s.seq.stand = .hold → s.hold.qualified = true →
      exec (.forceSample now force) s = .next (((((s.setClock now).setSens
        { s.sens with forceAt := now, loaded := false, run := none }).setLp (looperAfterHold s)).setCas
          { s.cas with factor := 0, limited := false }).setSeq { s.seq with stand := .empty }))) ∧
  ∀ (s : State) (now : Instant) (force : Nat),
    DecidesLoadOn s force → s.sens.drill = some .waiting →
    ∃ t, exec (.forceSample now force) s = .next t ∧
      t.sens = { s.sens with forceAt := now, loaded := false, run := none, drill := some .blocking } ∧
      SetsFlags s t now (fun f => f == .drillFired) ∧ KeepsReports s t ∧
      t.ldr = s.ldr ∧ t.seq = s.seq ∧ t.trk = s.trk ∧ t.lp = s.lp ∧ t.cas = s.cas ∧ t.store = s.store ∧
      t.hold = s.hold ∧ t.link = { s.link with flawArmed := s.link.flawArmed && !flawSentBy s now } ∧
      t.txq = s.txq ∧ t.ec = s.ec ∧ SameQueue s t

/-- R27, R110, R118, R126, R134: the first sample after a stale spell aligns the detector with the bite, keeping a blocking
drill only where it aligns to UNLOADED, which may end a qualified hold; the sample is then taken as any other.

R113, R114, R118, R125: what that gives where the sample is on the near side, where it starts a run on the far side, in the
blocking phase, and while UNCONFIGURED, where nothing is evaluated. -/
def Obligations.ResumptionAlignsDetector : Prop :=
  (∀ (s : State) (now : Instant) (force : Nat),
    let aligned := s.setSens { s.sens with
      forceStale := false, loaded := s.seq.bite.isSome
      drill := if s.seq.bite.isSome = true ∧ s.sens.drill = some .blocking then none else s.sens.drill }
    OutOfReset s → s.sens.forceStale = true →
    (¬(s.seq.stand = .hold ∧ s.hold.qualified = true ∧ s.seq.bite = none) →
      exec (.forceSample now force) s = exec (.forceSample now force) aligned) ∧
    (s.seq.stand = .hold → s.hold.qualified = true → s.seq.bite = none →
      exec (.forceSample now force) s = exec (.forceSample now force)
        (((aligned.setLp (looperAfterHold s)).setCas
          { s.cas with factor := 0, limited := false }).setSeq { s.seq with stand := .empty })) ∧
    (s.seq.stand = .unconfigured → s.seq.bite = none → exec (.forceSample now force) s =
      .next ((s.setClock now).setSens { s.sens with forceStale := false, forceAt := now, loaded := false })) ∧
    (s.seq.stand ≠ .unconfigured → s.seq.stand ≠ .hold → s.seq.bite.isSome = true → s.sens.run = none →
      min force 40000 < s.ldr.image.fOff → exec (.forceSample now force) s = .next ((s.setClock now).setSens
        { s.sens with forceStale := false, forceAt := now, loaded := true, run := some { length := 1, first := now },
                      drill := if s.sens.drill = some .blocking then none else s.sens.drill })) ∧
    (s.seq.stand ≠ .unconfigured → s.seq.stand ≠ .hold → s.seq.bite = none → s.sens.run = none →
      s.sens.drill ≠ some .blocking → s.ldr.image.fOn ≤ min force 40000 →
      exec (.forceSample now force) s = .next ((s.setClock now).setSens
        { s.sens with forceStale := false, forceAt := now, loaded := false, run := some { length := 1, first := now } })) ∧
    (s.seq.stand ≠ .unconfigured → s.seq.stand ≠ .hold → s.seq.bite = none → s.sens.drill = some .blocking →
      exec (.forceSample now force) s = .next ((s.setClock now).setSens
        { s.sens with forceStale := false, forceAt := now, loaded := false,
                      drill := if min force 40000 < s.ldr.image.fOff then none else some .blocking }))) ∧
  ∀ (s : State) (now : Instant) (force : Nat),
    OutOfReset s → s.sens.forceStale = true →
    s.seq.stand ≠ .unconfigured → s.seq.stand ≠ .hold →
    (s.seq.bite.isSome = true → s.ldr.image.fOff ≤ min force 40000 →
      exec (.forceSample now force) s = .next ((s.setClock now).setSens
        { s.sens with forceStale := false, forceAt := now, loaded := true, run := none,
                      drill := if s.sens.drill = some .blocking then none else s.sens.drill })) ∧
    (s.seq.bite = none → s.sens.drill ≠ some .blocking → min force 40000 < s.ldr.image.fOn →
      exec (.forceSample now force) s = .next ((s.setClock now).setSens
        { s.sens with forceStale := false, forceAt := now, loaded := false, run := none }))

/-- R119, R120: at position 1 a reading at the debounced level ends the candidate run, a differing one lengthens it, and the
ninth in a row sets the level; that is an edge if a level stood before. HOT_METAL_EDGE is that ninth reading (log entry
16). -/
def Obligations.HotMetalIsDebounced : Prop :=
  ∀ (s : State) (now : Instant) (high : Bool),
    OutOfReset s → s.atFirst = true →
    (s.sens.hotLevel = some high →
      exec (.hotMetalReading now high) s = .next ((s.setClock now).setSens { s.sens with hotRun := none })) ∧
    (s.sens.hotLevel ≠ some high → (∀ r, s.sens.hotRun = some r → r.level ≠ high) →
      exec (.hotMetalReading now high) s = .next ((s.setClock now).setSens
        { s.sens with hotRun := some { level := high, count := 1, first := now } })) ∧
    (∀ r, s.sens.hotRun = some r → s.sens.hotLevel ≠ some high → r.level = high → r.count < 8 →
      exec (.hotMetalReading now high) s = .next ((s.setClock now).setSens
        { s.sens with hotRun := some { r with count := r.count + 1 } })) ∧
    (∀ r, s.sens.hotRun = some r → s.sens.hotLevel = none → r.level = high → 8 ≤ r.count →
      exec (.hotMetalReading now high) s = .next ((s.setClock now).setSens
        { s.sens with hotLevel := some high, hotRun := none })) ∧
    (∀ r, s.sens.hotRun = some r → s.sens.hotLevel = some (!high) → r.level = high → 8 ≤ r.count →
      ∃ t, exec (.hotMetalReading now high) s = .next t ∧ exec (.hotMetalEdge now) s = .next t ∧
        t.sens.hotLevel = some high ∧ t.sens.hotRun = none)

/-- R31, R33, R35, R36, R37: an edge at position 1. A rising edge takes the tag of the oldest WAITING record that no marker
bears, or 0, as entry tag and makes a HEAD marker of it; a falling edge makes a TAIL marker of the entry tag. In HOLD the
edge is lost, and with 8 markers it is refused with TRACK-FULL.

The model's choices: HOT_METAL_EDGE is the ninth reading (log entry 16); a substituted lookup at the creation sets no
SUBSTITUTED (log entry 22); the entry tag is set even if the marker is refused, and not in HOLD (log entry 23). -/
def Obligations.HotMetalEdgeMakesMarker : Prop :=
  ∀ (s : State) (now : Instant) (rising : Bool) (r : HotRun),
    OutOfReset s → s.atFirst = true → s.sens.hotLevel = some (!rising) → s.sens.hotRun = some r → r.level = rising →
    8 ≤ r.count →
    let tag := if rising then
        ((s.store.table.find? fun r => r.state == .waiting && !(s.trk.markers.any fun m => m.tag == r.tag)).map
          Record.tag).getD 0
      else s.trk.entryTag
    let kind := if rising then MarkerKind.head else MarkerKind.tail
    let travel := roundNat (entrySpeed s (s.lookup tag).values * 2000) 1000
    let marker : Marker :=
      { kind := kind, tag := tag, distance := (s.ldr.image.dEntry : Int) * 1000 - travel, windowOpen := false }
    ∃ t, exec (.hotMetalEdge now) s = .next t ∧
      t.sens = { s.sens with hotLevel := some rising, hotRun := none } ∧
      (s.seq.stand.tracks = true → s.trk.markers.length < 8 →
        t.trk = { markers := insertMarker marker s.trk.markers, entryTag := tag } ∧ t.rep = s.rep) ∧
      (s.seq.stand.tracks = true → 8 ≤ s.trk.markers.length →
        t.trk = { markers := s.trk.markers, entryTag := tag } ∧ SetsFlags s t now (fun f => f == .trackFull) ∧
        KeepsReports s t) ∧
      (s.seq.stand.tracks = false → t.trk = s.trk ∧ t.rep = s.rep) ∧
      t.ldr = s.ldr ∧ t.seq = s.seq ∧ t.lp = s.lp ∧ t.cas = s.cas ∧ t.store = s.store ∧ t.hold = s.hold ∧
      t.link = s.link ∧ t.txq = s.txq ∧ t.ec = s.ec ∧ SameQueue s t

/-! ### Tracking -/

/-- R6, R17, R22, R23, R41 to R49, R56: where no load event is predicted (force samples arrive, or no crossing is taken), an
expiry moves every marker by its rate, clamps the list, drops the markers further past the stand than W and marks the windows
of the heads within W. The stand state and the looper go with the window, the miss and the tail lead; SUBSTITUTED,
TAIL-OVERDUE and STRAY-HEAD are set by their rules and no other flag is; unless a head is missed in EMPTY or AWAITING
(MissedHeadHoldsTrain) the hold line, the Transmit Queue, the counts and the reports are kept, and all else is kept always.

R2: in UNCONFIGURED nothing happens. -/
def Obligations.ExpiryMovesMarkers : Prop :=
  (∀ (s : State) (now : Instant), s.seq.stand = .unconfigured → OnlyClock (.trackingExpiry now) s) ∧
  ∀ (s : State) (now : Instant),
    s.seq.stand ≠ .unconfigured → PredictsNothing s →
    ∃ t, exec (.trackingExpiry now) s = .next t ∧
      t.trk.entryTag = s.trk.entryTag ∧
      t.trk.markers =
        ((clampOrder (s.trk.markers.map fun m =>
          { m with distance := m.distance - (markerRate s m.kind m.tag : Int) })).filter
            fun m => decide (-s.window ≤ m.distance)).map
          (fun m => { m with windowOpen := m.windowOpen || (m.kind == .head && decide (m.distance ≤ s.window)) }) ∧
      t.seq.stand = (match s.seq.stand with
        | .empty => if nearHead s then .awaiting else .empty
        | .awaiting => if nearHead s ∨ missedHeads s = [] then .awaiting else .empty
        | .coupled => if leadsTail s then .tailing else .coupled
        | .threading => .threading
        | .tailing => .tailing
        | .hold => .hold
        | .unconfigured => .unconfigured) ∧
      t.lp = (if leadsTail s then loweredLooper s ((s.seq.bite.map Bite.tag).getD 0) else s.lp) ∧
      SetsFlags s t now (fun f => (f == .substituted && substitutesMarker s) || (f == .tailOverdue && tailOverdue s) ||
        (f == .strayHead && s.seq.stand.biting && !(missedHeads s).isEmpty)) ∧
      (missedHeads s = [] ∨ (s.seq.stand ≠ .empty ∧ s.seq.stand ≠ .awaiting) →
        t.hold = s.hold ∧ t.txq = s.txq ∧ t.ec = s.ec ∧ KeepsReports s t) ∧
      t.seq.bite = s.seq.bite ∧ t.ldr = s.ldr ∧ t.cas = s.cas ∧ t.store = s.store ∧ t.sens = s.sens ∧ t.link = s.link ∧
      SameQueue s t

/-- R43: the order clamp raises each marker to the greatest distance at or ahead of it and changes nothing else.

R38: a new marker goes directly behind the last marker that is not further away than it; the list stays ordered, and the
clamp has nothing to correct. -/
def Obligations.MarkersKeepTheirPlaces : Prop :=
  (∀ (l : List Marker) (k : Nat) (hk : k < l.length) (hc : k < (clampOrder l).length),
    (clampOrder l).length = l.length ∧
    (clampOrder l)[k] = { l[k] with distance := (clampOrder l)[k].distance } ∧
    (∀ (j : Nat) (hj : j < l.length), j ≤ k → l[j].distance ≤ (clampOrder l)[k].distance) ∧
    ∃ (j : Nat) (hj : j < l.length), j ≤ k ∧ (clampOrder l)[k].distance = l[j].distance) ∧
  ∀ (m : Marker) (l : List Marker), ∃ ahead behind : List Marker,
    l = ahead ++ behind ∧ insertMarker m l = ahead ++ m :: behind ∧
    (∀ x ∈ behind, m.distance < x.distance) ∧ (∀ x, ahead.getLast? = some x → x.distance ≤ m.distance) ∧
    ((l.Pairwise fun x y => x.distance ≤ y.distance) →
      ((insertMarker m l).Pairwise fun x y => x.distance ≤ y.distance) ∧
      clampOrder (insertMarker m l) = insertMarker m l)

/-- R6, R22 to R24, R44, R46, R129: each head missed while the stand is EMPTY or AWAITING raises THREAD-MISS, front to back,
and starts the own drive; the stand is then AWAITING with the next front head within W, else EMPTY. Missed while the stand
bites they set STRAY-HEAD only, beside the expiry's other effects (R41, R48, R17). That is where no load event is predicted;
CrossingsPredictLoadEvents says the rest. -/
def Obligations.MissedHeadHoldsTrain : Prop :=
  ∀ (s : State) (now : Instant) (m : Marker) (rest : List Marker),
    PredictsNothing s → missedHeads s = m :: rest →
    (s.seq.stand = .empty ∨ s.seq.stand = .awaiting →
      ∃ t, exec (.trackingExpiry now) s = .next t ∧
        t.hold.ownDrive = true ∧ t.hold.others = s.hold.others ∧ t.hold.filtered = s.hold.filtered ∧
        t.hold.timer = s.hold.timer ∧ t.hold.qualified = s.hold.qualified ∧
        t.hold.lineAt = (if s.hold.others || s.hold.ownDrive then s.hold.lineAt else now) ∧
        Offers (s.setClock now) t (missAlarms s (m :: rest)) ∧
        t.rep.lastAlarm = some .threadMiss ∧ t.rep.periodFrom = s.rep.periodFrom ∧ t.lp = s.lp ∧
        t.seq = { s.seq with stand := if nearHead s then .awaiting else .empty } ∧
        SetsFlags s t now (fun f => (f == .substituted && substitutesMarker s) || (f == .tailOverdue && tailOverdue s))) ∧
    (∀ b, s.seq.bite = some b → s.seq.stand.biting = true →
      ∃ t, exec (.trackingExpiry now) s = .next t ∧ t.hold = s.hold ∧ t.txq = s.txq ∧ t.ec = s.ec ∧ KeepsReports s t ∧
        t.seq = { s.seq with stand := if leadsTail s then .tailing else s.seq.stand } ∧
        t.lp = (if leadsTail s then loweredLooper s b.tag else s.lp) ∧
        SetsFlags s t now (fun f => f == .strayHead || (f == .substituted && substitutesMarker s) ||
          (f == .tailOverdue && tailOverdue s)))

/-- R6, R45: an EMPTY stand becomes AWAITING exactly when a head is left in the moved list and the front one stands at W or
less; an AWAITING stand becomes EMPTY exactly when a head was missed and no such head is left.

R17, R47, R56: the tail lead takes a COUPLED stand before position N to TAILING and lowers its looper, exactly when a tail of
the bite's tag is left and the first one stands at L_low or less; at position N it does nothing. In THREADING, TAILING and
HOLD an expiry changes neither the stand state nor the looper. All where no load event is predicted (R49). -/
def Obligations.WindowAndTailLead : Prop :=
  (∀ (s : State) (now : Instant), PredictsNothing s →
    (s.seq.stand = .empty → ∃ t, exec (.trackingExpiry now) s = .next t ∧ t.lp = s.lp ∧
      (∀ m, (leftMarkers s).find? (fun x => x.kind == .head) = some m →
        t.seq = { s.seq with stand := if m.distance ≤ s.window then .awaiting else .empty }) ∧
      ((leftMarkers s).find? (fun x => x.kind == .head) = none → t.seq = s.seq)) ∧
    (s.seq.stand = .awaiting → ∃ t, exec (.trackingExpiry now) s = .next t ∧ t.lp = s.lp ∧
      (missedHeads s = [] → t.seq = s.seq) ∧
      (∀ m, missedHeads s ≠ [] → (leftMarkers s).find? (fun x => x.kind == .head) = some m →
        t.seq = { s.seq with stand := if m.distance ≤ s.window then .awaiting else .empty }) ∧
      (missedHeads s ≠ [] → (leftMarkers s).find? (fun x => x.kind == .head) = none →
        t.seq = { s.seq with stand := .empty }))) ∧
  (∀ (s : State) (now : Instant), PredictsNothing s → s.seq.stand = .coupled →
    ∃ t, exec (.trackingExpiry now) s = .next t ∧
      (∀ b m, s.seq.bite = some b → (leftMarkers s).find? (fun x => x.kind == .tail && x.tag == b.tag) = some m →
        (s.atLast = false → m.distance ≤ (s.lookup b.tag).values.lLow * 1000 →
          t.seq = { s.seq with stand := .tailing } ∧ t.lp = loweredLooper s b.tag) ∧
        (((s.lookup b.tag).values.lLow * 1000 : Int) < m.distance → t.seq = s.seq ∧ t.lp = s.lp)) ∧
      (∀ b, s.seq.bite = some b → (leftMarkers s).find? (fun x => x.kind == .tail && x.tag == b.tag) = none →
        t.seq = s.seq ∧ t.lp = s.lp) ∧
      (s.atLast = true ∨ s.seq.bite = none → t.seq = s.seq ∧ t.lp = s.lp) ∧
      t.txq = s.txq ∧ t.ec = s.ec ∧ t.hold = s.hold ∧ KeepsReports s t) ∧
  ∀ (s : State) (now : Instant), PredictsNothing s →
    (s.seq.stand = .threading ∨ s.seq.stand = .tailing ∨ s.seq.stand = .hold) →
    ∃ t, exec (.trackingExpiry now) s = .next t ∧ t.seq = s.seq ∧ t.lp = s.lp ∧
      t.txq = s.txq ∧ t.ec = s.ec ∧ t.hold = s.hold ∧ KeepsReports s t

/-- R6, R10, R12, R37, R41, R44 to R46, R48, R49, R103, R117: while the force input is stale, the front head left at 0 or
below opens a PREDICTED bite in AWAITING, which an EMPTY stand reaches at the same expiry; at position 1 a head of tag 0
binds the oldest WAITING record that no marker left bears. Heads missed at the expiry hold the train as ever. The event
instant is the expiry's and the detector stays as it is.

R17 to R20, R47, R49, R51, R104: the first tail left of the bite's tag at 0 or below ends the bite; a COUPLED stand before
position N has led its tail by then, so that the looper is lowering and LATE-LOWER is not set.

That one expiry predicts at most one event is the model's choice (log entry 24, DEDUCED): a head left at 0 or below at the
expiry at which a tail ends the bite opens no bite then, and the stand is left without one, AWAITING or EMPTY. -/
def Obligations.CrossingsPredictLoadEvents : Prop :=
  ∀ (s : State) (now : Instant) (m : Marker),
    let missed := missedHeads s
    let shown := (leftMarkers s).map fun x =>
      { x with windowOpen := x.windowOpen || (x.kind == .head && decide (x.distance ≤ s.window)) }
    s.sens.forceStale = true →
    (HeadCrosses s m →
      let oldest := if s.atFirst = true ∧ m.tag = 0 then
          s.store.table.find? fun r => r.state == .waiting && !((leftMarkers s).any fun x => x.tag == r.tag)
        else none
      let tag := (oldest.map Record.tag).getD m.tag
      (∀ r, oldest = some r → r.tag ≠ 0) →
      ∃ t, exec (.trackingExpiry now) s = .next t ∧
        t.seq.stand = (if s.atLast then .coupled else .threading) ∧
        t.seq.bite = some
          { tag := tag, unannounced := false, early := false, substituted := (findRecord s.store.table tag).isNone,
            predicted := true, partner := none
            impact := if 0 < (s.lookup tag).values.impactTime then
                some { elapsed := 0, boost := (s.lookup tag).values.boost } else none } ∧
        t.trk = (let rest := shown.eraseP fun x => x.kind == .head
          match oldest with
          | some r => { markers := nameTail r.tag rest
                        entryTag := if s.trk.entryTag = 0 then r.tag else s.trk.entryTag }
          | none => { s.trk with markers := rest }) ∧
        t.store = { s.store with table := if tag = 0 then s.store.table else enterRecord tag s.store.table } ∧
        Offers (s.setClock now) t (missAlarms s missed ++ [.headOn tag now]) ∧
        t.hold.ownDrive = (s.hold.ownDrive || !missed.isEmpty) ∧ (missed = [] → t.hold = s.hold) ∧
        t.rep.lastAlarm = (if missed = [] then s.rep.lastAlarm else some .threadMiss) ∧
        t.rep.periodFrom = s.rep.periodFrom ∧
        SetsFlags s t now (fun f =>
          (f == .substituted && (substitutesMarker s || (findRecord s.store.table tag).isNone)) ||
          (f == .tailOverdue && tailOverdue s)) ∧
        t.sens = s.sens ∧ t.lp = s.lp ∧ t.ldr = s.ldr ∧ t.cas = s.cas ∧ t.link = s.link ∧ SameQueue s t) ∧
    (∀ b, TailCrosses s b m →
      let lowers := s.seq.stand == .coupled && !s.atLast && (match s.lp.state with
        | .raising .. | .tension | .stalled .. => true
        | .none | .parked | .lowering .. => false)
      ∃ t, exec (.trackingExpiry now) s = .next t ∧
        t.seq = { stand := if shown.any (fun x => x.kind == .head && x.windowOpen) then .awaiting else .empty
                  bite := none } ∧
        t.trk = { s.trk with markers := removeTail b.tag shown } ∧
        t.store = { s.store with table := s.store.table.filter fun r => r.state != .entered } ∧
        t.lp = (if lowers then { s.lp with state := .lowering 0 b.tag, integral := 0, trim := 0 }
          else { s.lp with trim := 0 }) ∧
        Offers (s.setClock now) t [.tailOff b.tag now] ∧
        SetsFlags s t now (fun f => (f == .strayHead && !missed.isEmpty) || (f == .substituted && substitutesMarker s) ||
          (f == .tailOverdue && tailOverdue s) || (f == .shortPiece && s.seq.stand == .threading)) ∧
        KeepsReports s t ∧ t.hold = s.hold ∧
        t.sens = s.sens ∧ t.ldr = s.ldr ∧ t.cas = s.cas ∧ t.link = s.link ∧ SameQueue s t)

/-! ### Looper -/

/-- R58, R59, R60, R68: an expiry in RAISING: the ramp, held while the angle is stale; then completion; then the timeout.
RAISE_TIMEOUT is the expiry that reaches the timeout (log entry 14). -/
def Obligations.RaisingPeriod : Prop :=
  ∀ (s : State) (now : Instant) (timer : Nat) (tag : Tag),
    s.lp.state = .raising timer tag → s.seq.stand ≠ .unconfigured →
    let ref := s.biteSchedule.values.thetaAt s.position
    let rate := 2 * s.ldr.image.rateUp
    let angle := s.measuredAngle
    let command := if s.sens.angleStale then s.lp.command
      else if s.lp.command + rate < ref then s.lp.command + rate
      else if ref + rate < s.lp.command then s.lp.command - rate else ref
    let armed := !s.sens.angleStale && decide (angle ≤ ref + s.ldr.image.band) && decide (ref ≤ angle + s.ldr.image.band)
    let frozen := if s.seq.stand = .hold then s.lp.trim else 0
    let tension := (s.setClock now).setLp { state := .tension, command := ref, integral := 0, trim := 0 }
    let stalled := raiseAlarm .looperStall tag (BitVec.ofNat 16 angle) ((s.setClock now).setLp
      { state := .stalled .raise tag, command := command, integral := 0, trim := frozen })
    (armed = true → exec (.looperPeriodExpiry now) s = .next tension) ∧
    (armed = false → (timer + 1) * 2 < s.ldr.image.raiseTimeout → exec (.looperPeriodExpiry now) s =
      .next ((s.setClock now).setLp { s.lp with state := .raising (timer + 1) tag, command := command })) ∧
    (armed = false → s.ldr.image.raiseTimeout ≤ (timer + 1) * 2 →
      exec (.looperPeriodExpiry now) s = .next stalled ∧ exec (.raiseTimeout now) s = .next stalled) ∧
    (armed = true → s.ldr.image.raiseTimeout ≤ (timer + 1) * 2 → exec (.raiseTimeout now) s = .next tension)

/-- R63, R64, R65: an expiry in LOWERING. LOWER_TIMEOUT is the expiry that reaches the timeout (log entry 14). -/
def Obligations.LoweringPeriod : Prop :=
  ∀ (s : State) (now : Instant) (timer : Nat) (tag : Tag),
    s.lp.state = .lowering timer tag → s.seq.stand ≠ .unconfigured →
    let rest := s.ldr.image.thetaRest
    let rate := 2 * s.ldr.image.rateDown
    let angle := s.measuredAngle
    let command := if s.sens.angleStale then s.lp.command
      else if s.lp.command + rate < rest then s.lp.command + rate
      else if rest + rate < s.lp.command then s.lp.command - rate else rest
    let home := !s.sens.angleStale && decide (angle ≤ rest + s.ldr.image.band)
    let frozen := if s.seq.stand = .hold then s.lp.trim else 0
    let parked := (s.setClock now).setLp { state := .parked, command := rest, integral := 0, trim := frozen }
    let stalled := raiseAlarm .parkFault tag (BitVec.ofNat 16 angle) ((s.setClock now).setLp
      { state := .stalled .lower tag, command := command, integral := 0, trim := frozen })
    (home = true → exec (.looperPeriodExpiry now) s = .next parked) ∧
    (home = false → (timer + 1) * 2 < s.ldr.image.lowerTimeout → exec (.looperPeriodExpiry now) s =
      .next ((s.setClock now).setLp { s.lp with state := .lowering (timer + 1) tag, command := command })) ∧
    (home = false → s.ldr.image.lowerTimeout ≤ (timer + 1) * 2 →
      exec (.looperPeriodExpiry now) s = .next stalled ∧ exec (.lowerTimeout now) s = .next stalled) ∧
    (home = true → s.ldr.image.lowerTimeout ≤ (timer + 1) * 2 → exec (.lowerTimeout now) s = .next parked)

/-- R61, R67, R68: an expiry in TENSION works I and then t from the angle error, each clamped; with a stale angle or in HOLD
both are kept. The angle command is θ_ref at once.

R53, R54, R66: an expiry in PARKED holds θ_rest; NONE, a stalled raise and an UNCONFIGURED station do nothing; a stalled
lower parks once the arm is measured at rest.

R70, R82, R177: the outputs to the looper drive and the stand drive: PARK, 0 and 0 while UNCONFIGURED, which covers the time
before the link is given; else the mode of the looper state, θ_cmd and ref. -/
def Obligations.TensionAndRest : Prop :=
  (∀ (s : State) (now : Instant),
    s.lp.state = .tension → s.seq.stand ≠ .unconfigured →
    let v := s.biteSchedule.values
    let ref := v.thetaAt s.position
    let e : Int := (ref : Int) - (s.measuredAngle : Int)
    let integral := max (-(s.ldr.image.iMax : Int)) (min (s.ldr.image.iMax : Int) (s.lp.integral + (v.ki : Int) * e))
    let trim := max (-(s.ldr.image.tMax : Int)) (min (s.ldr.image.tMax : Int) ((v.kp : Int) * e + integral))
    (s.sens.angleStale = false → s.seq.stand ≠ .hold → exec (.looperPeriodExpiry now) s =
      .next ((s.setClock now).setLp { s.lp with command := ref, integral := integral, trim := trim })) ∧
    (s.sens.angleStale = true ∨ s.seq.stand = .hold → exec (.looperPeriodExpiry now) s =
      .next ((s.setClock now).setLp { s.lp with command := ref }))) ∧
  ∀ (s : State) (now : Instant),
    let home := !s.sens.angleStale && decide (s.measuredAngle ≤ s.ldr.image.thetaRest + s.ldr.image.band)
    (s.seq.stand = .unconfigured → OnlyClock (.looperPeriodExpiry now) s) ∧
    (s.lp.state = .none → OnlyClock (.looperPeriodExpiry now) s) ∧
    (∀ tag, s.lp.state = .stalled .raise tag → OnlyClock (.looperPeriodExpiry now) s) ∧
    (s.seq.stand ≠ .unconfigured → s.lp.state = .parked → exec (.looperPeriodExpiry now) s =
      .next ((s.setClock now).setLp { s.lp with command := s.ldr.image.thetaRest })) ∧
    (∀ tag, s.seq.stand ≠ .unconfigured → s.lp.state = .stalled .lower tag →
      (home = false → OnlyClock (.looperPeriodExpiry now) s) ∧
      (home = true → exec (.looperPeriodExpiry now) s = .next ((s.setClock now).setLp
        { state := .parked, command := s.ldr.image.thetaRest, integral := 0,
          trim := if s.seq.stand = .hold then s.lp.trim else 0 }))) ∧
  ∀ s : State,
    (s.seq.stand = .unconfigured → s.modeOutput = .park ∧ s.angleOutput = 0 ∧ s.speedOutput = 0) ∧
    (StandLawful s → s.ldr.phase ≠ .running → s.modeOutput = .park ∧ s.angleOutput = 0 ∧ s.speedOutput = 0) ∧
    (s.seq.stand ≠ .unconfigured → s.angleOutput = s.lp.command ∧ s.speedOutput = s.cas.reference ∧
      s.modeOutput = match s.lp.state with
        | .none | .parked => .park
        | .raising .. | .stalled .raise _ => .raise
        | .tension => .tension
        | .lowering .. | .stalled .lower _ => .lower)

/-! ### Cascade and the periodic frames -/

/-- R74: the composition: commutative, 0 its unit, one exact product and one rounding with ties away from zero. -/
def Obligations.CompositionRoundsOnce : Prop :=
  ∀ a b : Int,
    compose a b = compose b a ∧ compose 0 b = b ∧
    (∀ k : Int, 2 * (a * b) < 2 * 1000000 * k + 1000000 → 2 * 1000000 * k - 1000000 < 2 * (a * b) →
      compose a b = a + b + k) ∧
    (∀ k : Int, 0 ≤ k → 2 * (a * b) = 2 * 1000000 * k + 1000000 → compose a b = a + b + (k + 1)) ∧
    (∀ k : Int, k ≤ 0 → 2 * (a * b) = 2 * 1000000 * k - 1000000 → compose a b = a + b + (k - 1))

/-- R75, R76, R78, R79, R80, R83, R85: a speed period while the stand bites. -/
def Obligations.SpeedPeriodWhileBiting : Prop :=
  ∀ (s : State) (now : Instant) (b : Bite),
    s.seq.stand.biting = true → s.seq.bite = some b →
    let taken := (s.seq.stand == .coupled || s.seq.stand == .tailing) && !s.atLast && b.partner == some s.cas.downView.tag
    let d := if taken then s.cas.downView.factor else 0
    let raw := compose s.lp.trim d
    let c := max (-200000) (min 200000 raw)
    let limited := decide (c ≠ raw) || (taken && s.cas.downView.flags.getLsbD 4)
    let time := (s.lookup b.tag).values.impactTime
    let impact := b.impact.bind fun i => if i.elapsed + 1 < time then some { i with elapsed := i.elapsed + 1 } else none
    let imp : Nat := match impact with
      | some i => roundNat (i.boost * (time - i.elapsed)) time
      | none => 0
    let base := (s.lookup b.tag).base
    let asked := (base : Int) + roundInt (base * (c + imp)) 1000000
    let ref := clampInt s.ldr.image.vMin s.ldr.image.vMax asked
    let aged := fun v : View =>
      { v with stale := v.stale || (v.capture.map fun x => decide (16000 ≤ elapsed now x)).getD false }
    ∃ t, exec (.speedPeriodExpiry now) s = .next t ∧
      t.cas.factor = c ∧ t.cas.limited = limited ∧ t.cas.reference = ref.toNat ∧ t.cas.clamped = decide (ref ≠ asked) ∧
      t.cas.periodFrom = s.cas.periodFrom ∧ t.cas.upView = aged s.cas.upView ∧ t.cas.downView = aged s.cas.downView ∧
      t.seq = { s.seq with bite := some { b with impact := impact } } ∧
      SetsFlags s t now (fun f => (f == .limitedSeen && limited) || (f == .clampedSeen && decide (ref ≠ asked))) ∧
      KeepsReports s t ∧
      t.ldr = s.ldr ∧ t.trk = s.trk ∧ t.lp = s.lp ∧ t.store = s.store ∧ t.sens = s.sens ∧ t.hold = s.hold ∧
      t.link = s.link ∧ t.txq = s.txq ∧ t.ec = s.ec ∧ SameQueue s t

/-- R77, R79 to R82, R107: a speed period with no bite: c is 0 but frozen in HOLD; the reference follows the record of the
front head, or the oldest WAITING one, one that survived a hold too (the model's choice between R80 and R81, log entry 48),
and is held in range where there is none and in HOLD, after a RESTART the v_min which that set (the model's choice between R71
and R81, log entry 51); it is 0 while UNCONFIGURED. The views age as at every period (R83,
R85). -/
def Obligations.SpeedPeriodWithoutBite : Prop :=
  ∀ (s : State) (now : Instant),
    s.seq.stand.biting = false → s.seq.bite = none →
    let vMin := s.ldr.image.vMin
    let vMax := s.ldr.image.vMax
    let head := ((s.trk.markers.find? fun m => m.kind == .head).bind fun m => findRecord s.store.table m.tag).or
      (s.store.table.find? fun r => r.state == .waiting)
    let waits := s.seq.stand == .empty || s.seq.stand == .awaiting
    let aged := fun v : View =>
      { v with stale := v.stale || (v.capture.map fun x => decide (16000 ≤ elapsed now x)).getD false }
    ∃ t, exec (.speedPeriodExpiry now) s = .next t ∧
      (s.seq.stand = .hold → t.cas.factor = s.cas.factor ∧ t.cas.limited = s.cas.limited) ∧
      (s.seq.stand ≠ .hold → t.cas.factor = 0 ∧ t.cas.limited = false) ∧
      (s.seq.stand = .unconfigured → t.cas.reference = 0) ∧
      (∀ r, head = some r → waits = true → t.cas.reference = clampNat vMin vMax r.base ∧
        t.cas.clamped = decide (clampNat vMin vMax r.base ≠ r.base)) ∧
      (s.seq.stand = .hold ∨ (waits = true ∧ head = none) →
        t.cas.reference = clampNat vMin vMax s.cas.reference ∧ t.cas.clamped = s.cas.clamped) ∧
      t.cas.periodFrom = s.cas.periodFrom ∧ t.cas.upView = aged s.cas.upView ∧ t.cas.downView = aged s.cas.downView ∧
      SetsFlags s t now (fun f => f == .clampedSeen && waits &&
        (match head with | some r => decide (clampNat vMin vMax r.base ≠ r.base) | none => false)) ∧
      KeepsReports s t ∧
      t.ldr = s.ldr ∧ t.seq = s.seq ∧ t.trk = s.trk ∧ t.lp = s.lp ∧ t.store = s.store ∧ t.sens = s.sens ∧
      t.hold = s.hold ∧ t.link = s.link ∧ t.txq = s.txq ∧ t.ec = s.ec ∧ SameQueue s t

/-- R78, R83, R85: the two sub-steps of the speed period that the table lists by themselves (log entry 15): a fresh view of
16,000 µs or more becomes stale and keeps its fields, and an impact remainder whose next millisecond reaches T is removed;
without one, or before its end, IMPACT_END moves only the clock (log entry 4). -/
def Obligations.ViewsAgeAndBoostEnds : Prop :=
  ∀ (s : State) (now : Instant),
    let aged := fun v : View =>
      { v with stale := v.stale || (v.capture.map fun x => decide (16000 ≤ elapsed now x)).getD false }
    exec (.viewStale now) s =
      .next ((s.setClock now).setCas { s.cas with upView := aged s.cas.upView, downView := aged s.cas.downView }) ∧
    (∀ b, s.seq.bite = some b → ∀ i, b.impact = some i → (s.lookup b.tag).values.impactTime ≤ i.elapsed + 1 →
      exec (.impactEnd now) s = .next ((s.setClock now).setSeq { s.seq with bite := some { b with impact := none } })) ∧
    (∀ b, s.seq.bite = some b → ∀ i, b.impact = some i → i.elapsed + 1 < (s.lookup b.tag).values.impactTime →
      OnlyClock (.impactEnd now) s) ∧
    (s.seq.bite.bind Bite.impact = none → OnlyClock (.impactEnd now) s)

/-- R87 to R89, R155, R175, R181: the two periodic frames: a CASCADE frame every 4 ms but in UNCONFIGURED, which offers none, a
STATUS frame every 100 ms in every stand state, each with the values at the moment of the offer. A period that has not begun,
or has not yet run, moves only the clock (the model's choice, log entry 4). That an UNCONFIGURED station reports
UPSTREAM-STALE and DOWNSTREAM-STALE by the rule of a configured one, with N as 0, is the model's choice (log entry 28).

R157: a STATUS frame offered once the last bit of the complemented check word has been sent reports FLAW-ARMED clear and
DRILL-FIRED set, with the instant at which that bit ended, by the clock (log entry 34).

R153: the age tick marks every pending notice whose age has reached 65,535, and nothing else. -/
def Obligations.PeriodicFramesAndAges : Prop :=
  (∀ (s : State) (now start : Instant),
    (s.seq.stand ≠ .unconfigured → s.cas.periodFrom = some start → 4000 ≤ elapsed now start →
      ∃ flags : Byte, exec (.cascadeFramePeriod now) s =
        .next (offer (.cascade ((s.seq.bite.map Bite.tag).getD 0) s.cas.factor s.sens.speed flags)
          ((s.setClock now).setCas { s.cas with periodFrom := some (start + 4000) })) ∧
        (flags.extractLsb' 5 3).toNat = s.seq.stand.code ∧ flags.getLsbD 4 = s.cas.limited ∧
        flags.getLsbD 3 = s.cas.clamped ∧ flags.getLsbD 2 = (s.cas.downView.stale && !s.atLast) ∧
        flags.getLsbD 1 = s.sens.speedStale ∧ flags.getLsbD 0 = false) ∧
    (s.rep.periodFrom = some start → 100000 ≤ elapsed now start → s.trk.markers.length ≤ 8 →
      let fired := flawSentBy s now
      ∃ (data : Vector Byte 8) (u : State), exec (.statusFramePeriod now) s =
        .next (offer (.status data) (u.setRep { u.rep with periodFrom := some (start + 100000) })) ∧
        (fired = false → u = s.setClock now) ∧
        (fired = true → u.clock = now ∧ u.link = { s.link with flawArmed := false } ∧ u.txq = s.txq ∧ u.ec = s.ec ∧
          SameStand s u ∧ SameQueue s u ∧ KeepsReports s u ∧
          ∀ a, s.link.attempt = some a → ∀ f, u.stickyMark f =
            if f = .drillFired then some ⟨checkWordSentAt s a, s.txq.nextOrder⟩ else s.stickyMark f) ∧
        data[0].toNat = s.seq.stand.code * 16 + s.lp.state.code ∧ data[1] = (s.seq.bite.map Bite.tag).getD 0 ∧
        data[2].toNat = s.trk.markers.length * 16 + s.ec.link.code * 2 + s.hold.ownDrive.toNat ∧
        (∀ f, carriesFlag data f = (s.stickySet f || (f == .drillFired && fired))) ∧
        data[5] = octet s.sens.forceStale s.sens.angleStale s.sens.speedStale (s.cas.upView.stale && !s.atFirst)
          (s.cas.downView.stale && !s.atLast) ((s.seq.bite.map Bite.predicted).getD false) s.sens.drill.isSome
          (s.link.flawArmed && !fired) ∧
        data[6] = BitVec.ofNat 8 s.ec.dropped ∧ data[7] = BitVec.ofNat 8 s.ec.stray)) ∧
  (∀ (s : State) (now : Instant),
    (s.seq.stand = .unconfigured ∨ (∀ start, s.cas.periodFrom = some start → elapsed now start < 4000) →
      OnlyClock (.cascadeFramePeriod now) s) ∧
    ((∀ start, s.rep.periodFrom = some start → elapsed now start < 100000) → OnlyClock (.statusFramePeriod now) s)) ∧
  ∀ (s : State) (now : Instant),
    ∃ t, exec (.noticeAgeTick now) s = .next t ∧ t.txq.nextOrder = s.txq.nextOrder ∧
      (∀ i : Fin 4, t.txq.slots[i] = s.txq.slots[i].map fun x =>
        { x with saturated := x.saturated || (!x.inTransmission &&
          (match x.frame with
            | .headOn _ e | .tailOff _ e => decide (65535 ≤ roundNat (elapsed now e) 10)
            | .cascade .. | .alarm .. | .status .. => false)) }) ∧
      SameStand s t ∧ t.link = s.link ∧ t.ec = s.ec ∧ t.rep = s.rep ∧ SameQueue s t

/-! ### Train hold -/

/-- R25, R30, R57, R105, R126, R128, R131, R132, R163: the line has read active for 1,000 µs: the filtered state becomes
ACTIVE, and a stand that can be held tears down its hand-off. -/
def Obligations.HoldLineHoldsStand : Prop :=
  ∀ (s : State) (now : Instant),
    OutOfReset s → s.hold.filtered = false → (s.hold.others = true ∨ s.hold.ownDrive = true) →
    1000 ≤ elapsed now s.hold.lineAt →
    let monitor := { s.hold with filtered := true, timer := none, qualified := false }
    (s.seq.stand.tracks = true → ∃ t, exec (.holdLineActive now) s = .next t ∧
      t.hold = monitor ∧ t.seq = { stand := .hold, bite := none } ∧ t.trk = { markers := [], entryTag := 0 } ∧
      t.store = { s.store with table := s.store.table.filter fun r => r.state != .entered } ∧
      t.sens = { s.sens with drill := none } ∧
      t.lp = (match s.lp.state with
        | .raising .. | .tension =>
          { s.lp with state := .lowering 0 ((s.seq.bite.map Bite.tag).getD 0), integral := 0 }
        | .none | .parked | .lowering .. | .stalled .. => s.lp) ∧
      t.txq.nextOrder = s.txq.nextOrder ∧
      (∀ (i : Fin 4), t.txq.slots[i] = match s.txq.slots[i] with
        | some x => if x.frame.kind = .alarm then some x else if x.inTransmission then some { x with cleared := true }
                    else none
        | none => none) ∧
      t.ldr = s.ldr ∧ t.cas = s.cas ∧ t.link = s.link ∧ t.ec = s.ec ∧ t.rep = s.rep ∧ SameQueue s t) ∧
    (s.seq.stand.tracks = false → exec (.holdLineActive now) s = .next ((s.setClock now).setHold monitor))

/-- R27, R57, R77, R131: released for 1,000 µs the filtered state is RELEASED and the 200 ms start; at their end the release
is qualified, and a stand in HOLD with an UNLOADED detector becomes EMPTY. -/
def Obligations.ReleaseQualifiesAndEndsHold : Prop :=
  ∀ (s : State) (now : Instant),
    OutOfReset s →
    (s.hold.filtered = true → s.hold.others = false → s.hold.ownDrive = false → 1000 ≤ elapsed now s.hold.lineAt →
      exec (.holdLineReleased now) s = .next ((s.setClock now).setHold
        { s.hold with filtered := false, timer := some now, qualified := false })) ∧
    (∀ start, s.hold.timer = some start → s.hold.filtered = false → 200000 ≤ elapsed now start →
      let monitor := { s.hold with timer := none, qualified := true }
      (s.seq.stand ≠ .hold ∨ s.sens.loaded = true →
        exec (.releaseQualified now) s = .next ((s.setClock now).setHold monitor)) ∧
      (s.seq.stand = .hold → s.sens.loaded = false → exec (.releaseQualified now) s =
        .next (((((s.setClock now).setHold monitor).setLp (looperAfterHold s)).setCas
            { s.cas with factor := 0, limited := false }).setSeq { s.seq with stand := .empty })))

/-- R128, R130: a change of the wire starts the 1,000 µs afresh; a RELEASE ends the own drive (the wire as the model has it:
log entry 11).

R129: whatever the command, the own drive starts only at a tracking expiry of an EMPTY or AWAITING stand that finds a head
further past the stand than W. -/
def Obligations.WireAndOwnDrive : Prop :=
  (∀ (c : Instr) (s t : State), exec c s = .next t → s.hold.ownDrive = false → t.hold.ownDrive = true →
    c = .trackingExpiry c.now ∧ (s.seq.stand = .empty ∨ s.seq.stand = .awaiting) ∧
    ∃ m ∈ clampOrder (advanceMarkers s s.trk.markers), m.kind = .head ∧ m.distance < -s.window) ∧
  ∀ (s : State) (now : Instant) (sender : BitVec 5) (active marker : Bool),
    exec (.holdLineChange now active) s = .next ((s.setClock now).setHold { s.hold with
      others := active
      lineAt := if (active || s.hold.ownDrive) = (s.hold.others || s.hold.ownDrive) then s.hold.lineAt else now }) ∧
    (Delivers s .release sender .setup →
      exec (.release ⟨now, marker⟩ sender) s = .next ((Heard s ⟨now, marker⟩).setHold { s.hold with
        ownDrive := false
        lineAt := if s.hold.others = (s.hold.others || s.hold.ownDrive) then s.hold.lineAt else now }))

/-! ### Frames received -/

/-- R150, R152, R165, R167 to R170: what a clean frame does before any effect of its own, and all it does when it is ignored;
a stray or malformed one is counted too. The last recessive bits of the frame stand before the idle count: the two of the
reject slot and a recessive last marker bit (log entry 46).

That an ignored frame has its clean receive reported, so that REC falls by 1 for it, is the model's choice between R150 and R165
with R169 (log entry 50).

R150, R165, R167: whatever kind of frame is commanded, an ignored one has only its clean receive, a stray one its count as
well, and a station that is not listening, or has found an error in the frame it is receiving (R150), takes none (log
entries 17, 18).

R154, R168: a frame is malformed unless its kind code is known and its precedence and length are the kind's.

R154, R165: the role of a frame is that of the first entry whose mask bits all agree with precedence, sender and kind; none
where no entry agrees.

R166: what the default table gives. -/
def Obligations.CleanFramesAreReported : Prop :=
  (∀ (s : State) (kind : FrameKind) (sender : BitVec 5),
    let frameBit := fun n : Nat => if 9 ≤ n then kind.precedence.getLsbD (n - 9)
      else if 4 ≤ n then sender.getLsbD (n - 4) else kind.code.getLsbD n
    let agrees := fun e : AcceptEntry => ∀ n, n < 12 → e.mask.getLsbD n = true → e.bits.getLsbD n = frameBit n
    (∀ (ahead behind : List AcceptEntry) (e : AcceptEntry), s.ldr.image.accept = ahead ++ e :: behind →
      (∀ x ∈ ahead, ¬agrees x) → agrees e → s.roleOf kind sender = some e.role) ∧
    ((∀ x ∈ s.ldr.image.accept, ¬agrees x) → s.roleOf kind sender = none) ∧
    (∀ n, s.ldr.image.accept = defaultAccept s.position n → s.roleOf kind sender = some
      (if sender.toNat + 1 = s.position then (if s.position = 1 then .closed else .upstream)
       else if sender.toNat = s.position + 1 then (if s.position = n then .closed else .downstream)
       else if 24 ≤ sender.toNat then .setup else .closed))) ∧
  (∀ (s : State) (fin : FrameEnd) (sender : BitVec 5) (kind : FrameKind),
    let received := { s.link with
      reception := none, recessive := 0, recessiveAt := fin.now, carried := if fin.marker then 3 else 2, idle := false
      extraWait := false, capture := fin.now, rejectDriven := false }
    Listens s →
    (Heard s fin).link = received ∧
    (Heard s fin).ec = (if s.ec.link = .offLink then s.ec else
      { s.ec with
        rxErrors := s.ec.rxErrors - 1
        link := if s.ec.link = .joining then .joining
          else if 128 ≤ s.ec.txErrors ∨ 128 ≤ s.ec.rxErrors - 1 then .muted
          else if 64 ≤ s.ec.txErrors ∨ 64 ≤ s.ec.rxErrors - 1 then .warned else .active }) ∧
    SameStand s (Heard s fin) ∧ SameQueue s (Heard s fin) ∧ (Heard s fin).txq = s.txq ∧ (Heard s fin).rep = s.rep ∧
    (FrameIgnored s kind sender → exec (.frameIgnored fin sender kind) s = .next (Heard s fin)) ∧
    (FrameStray s kind sender → exec (.strayFrame fin sender kind) s = .next (countedStray (Heard s fin)))) ∧
  (∀ (c : Instr) (s : State) (fin : FrameEnd) (kind : FrameKind) (sender : BitVec 5),
    frameOf c = some (fin, kind, sender) →
    (Listens s → FrameIgnored s kind sender → exec c s = .next (Heard s fin)) ∧
    (Listens s → FrameStray s kind sender → exec c s = .next (countedStray (Heard s fin))) ∧
    (¬Listens s → OnlyClock c s)) ∧
  ∀ (s : State) (fin : FrameEnd) (precedence : BitVec 3) (sender : BitVec 5) (code length : BitVec 4),
    Listens s →
    (∀ kind : FrameKind, kind.code = code → kind.precedence ≠ precedence ∨ kind.length ≠ length) →
    (s.seq.stand ≠ .unconfigured →
      exec (.malformedFrame fin precedence sender code length) s = .next (countedStray (Heard s fin))) ∧
    (s.seq.stand = .unconfigured →
      exec (.malformedFrame fin precedence sender code length) s = .next (Heard s fin))

/-- R31 to R34, R38 to R40: a notice with role UPSTREAM at positions 2..N makes a marker from D_up, back-dated by the capture
interval and the age, at the rate of its kind; in HOLD it is lost, and with 8 markers refused with TRACK-FULL. That a
substituted lookup at the creation sets no SUBSTITUTED is the model's choice (log entry 22). -/
def Obligations.NoticesMakeMarkers : Prop :=
  ∀ (s : State) (fin : FrameEnd) (sender : BitVec 5) (tag : Tag) (age : BitVec 16),
    let i := s.position
    let v := (s.lookup tag).values
    let headRate := roundNat (s.cas.upView.speed * (1000 + v.fAt (i - 1))) 1000
    let tailRate := roundNat (s.sens.speed * (1000 + v.fAt i) * v.hAt i) (1000 * v.hAt (i - 1))
    let bit := match s.ldr.rateCode.toNat with | 0 => 8 | 1 => 4 | 2 => 2 | _ => 1
    let travel := fun rate : Nat => roundNat (rate * (66 * bit + 10 * age.toNat)) 1000
    let marker := fun (kind : MarkerKind) (rate : Nat) =>
      ({ kind := kind, tag := tag, distance := (s.ldr.image.dUp : Int) * 1000 - travel rate, windowOpen := false } : Marker)
    let after := fun m : Marker =>
      if s.seq.stand = .hold then Heard s fin
      else if 8 ≤ s.trk.markers.length then setSticky .trackFull (Heard s fin)
      else (Heard s fin).setTrk { s.trk with markers := insertMarker m s.trk.markers }
    s.atFirst = false →
    (Delivers s .headOn sender .upstream → (∀ b, s.seq.bite = some b → b.unannounced = false) →
      exec (.upstreamHeadOn fin sender tag age) s = .next (after (marker .head headRate))) ∧
    (Delivers s .tailOff sender .upstream →
      exec (.upstreamTailOff fin sender tag age) s = .next (after (marker .tail tailRate)))

/-- R13, R103: the HEAD-ON of an UNANNOUNCED bite is adopted: tag and flag change, a WAITING record of the tag is set
ENTERED, and without one SUBSTITUTED is set again (log entry 35). No marker is made. -/
def Obligations.UnannouncedBiteAdopts : Prop :=
  ∀ (s : State) (fin : FrameEnd) (sender : BitVec 5) (tag : Tag) (age : BitVec 16) (b : Bite),
    Delivers s .headOn sender .upstream → s.atFirst = false → s.seq.bite = some b → b.unannounced = true →
    let bind := (findRecord s.store.table tag).any fun r => r.state == .waiting
    ∃ t, exec (.upstreamHeadOn fin sender tag age) s = .next t ∧
      t.seq = { s.seq with bite := some { b with tag := tag, unannounced := false } } ∧
      t.store = { s.store with table := if bind then enterRecord tag s.store.table else s.store.table } ∧
      SetsFlags s t fin.now (fun f => f == .substituted && !bind) ∧ KeepsReports s t ∧
      t.link = (Heard s fin).link ∧ t.ec = (Heard s fin).ec ∧ t.ldr = s.ldr ∧ t.trk = s.trk ∧ t.lp = s.lp ∧
      t.cas = s.cas ∧ t.sens = s.sens ∧ t.hold = s.hold ∧ t.txq = s.txq ∧ SameQueue s t

/-- R14, R55: a DOWNSTREAM HEAD-ON in THREADING couples the stand: the partner tag, TAG-MISMATCH if it is not the bite's, and
RAISE, taken in PARKED and LOWERING. That θ_cmd takes the measured angle as it is, above the 6,000 of R52 too, is the model's
choice (log entry 42). -/
def Obligations.DownstreamHeadCouples : Prop :=
  ∀ (s : State) (fin : FrameEnd) (sender : BitVec 5) (tag : Tag) (age : BitVec 16) (b : Bite),
    Delivers s .headOn sender .downstream → s.seq.stand = .threading → s.seq.bite = some b →
    ∃ t, exec (.downstreamHeadOn fin sender tag age) s = .next t ∧
      t.seq = { stand := .coupled, bite := some { b with partner := some tag } } ∧
      t.lp = (match s.lp.state with
        | .parked | .lowering .. =>
          { state := .raising 0 b.tag, command := s.sens.angle.getD s.ldr.image.thetaRest, integral := 0, trim := 0 }
        | .none | .raising .. | .tension | .stalled .. => s.lp) ∧
      SetsFlags s t fin.now (fun f => f == .tagMismatch && tag != b.tag) ∧ KeepsReports s t ∧
      t.link = (Heard s fin).link ∧ t.ec = (Heard s fin).ec ∧ t.ldr = s.ldr ∧ t.trk = s.trk ∧ t.cas = s.cas ∧
      t.store = s.store ∧ t.sens = s.sens ∧ t.hold = s.hold ∧ t.txq = s.txq ∧ SameQueue s t

/-- R15, R139, R167: a DOWNSTREAM HEAD-ON outside THREADING is stray; a DOWNSTREAM TAIL-OFF, and an ALARM or STATUS from a
neighbour, are ignored and not counted; an ALARM or STATUS with role SETUP is stray. -/
def Obligations.FramesWithoutEffect : Prop :=
  ∀ (s : State) (fin : FrameEnd) (sender : BitVec 5) (tag : Tag) (age : BitVec 16),
    let strayed := countedStray (Heard s fin)
    (Delivers s .headOn sender .downstream → s.seq.stand ≠ .threading →
      exec (.downstreamHeadOn fin sender tag age) s = .next strayed) ∧
    (Delivers s .tailOff sender .downstream →
      exec (.downstreamTailOff fin sender tag age) s = .next (Heard s fin)) ∧
    ((Delivers s .alarm sender .upstream ∨ Delivers s .alarm sender .downstream) →
      exec (.alarmReceived fin sender) s = .next (Heard s fin)) ∧
    ((Delivers s .status sender .upstream ∨ Delivers s .status sender .downstream) →
      exec (.statusReceived fin sender) s = .next (Heard s fin)) ∧
    (Delivers s .alarm sender .setup → exec (.alarmReceived fin sender) s = .next strayed) ∧
    (Delivers s .status sender .setup → exec (.statusReceived fin sender) s = .next strayed)

/-- R84: a CASCADE frame replaces the whole view of its role, with the frame-end capture, and sets it fresh; with role SETUP
it is stray. -/
def Obligations.CascadeFrameReplacesView : Prop :=
  ∀ (s : State) (fin : FrameEnd) (sender : BitVec 5) (tag : Tag) (factor : BitVec 24) (speed : BitVec 16) (flags : Byte),
    let v : View := { tag := tag, factor := factor.toInt, speed := speed.toNat, flags := flags, capture := some fin.now,
                      stale := false }
    (Delivers s .cascade sender .upstream →
      exec (.cascadeDelivered fin sender tag factor speed flags) s =
        .next ((Heard s fin).setCas { s.cas with upView := v })) ∧
    (Delivers s .cascade sender .downstream →
      exec (.cascadeDelivered fin sender tag factor speed flags) s =
        .next ((Heard s fin).setCas { s.cas with downView := v })) ∧
    (Delivers s .cascade sender .setup →
      exec (.cascadeDelivered fin sender tag factor speed flags) s =
        .next (countedStray (Heard s fin)))

/-- R94: the ids, the accepted ranges, and the value each field is; an id of no field is unknown.

R94, R95: the two pairs in order, each on its own: a value in range is stored; one outside is clamped with FIELD-ADJUSTED, an
h outside and an unknown id change nothing with FIELD-REFUSED. -/
def Obligations.SetupFieldsAmendStaging : Prop :=
  (∀ (id : Byte) (fld : SetupField), fieldOfId id = some fld ↔ id.toNat = match fld with
    | .vTop => 0x01
    | .h k => 0x10 + k
    | .f k => 0x21 + k
    | .theta k => 0x31 + k
    | .kp => 0x40
    | .ki => 0x41
    | .boost => 0x42
    | .impactTime => 0x43
    | .lLow => 0x44) ∧
  (∀ fld : SetupField, (fld.low, fld.high) = match fld with
    | .vTop => (1000, 25000)
    | .h _ => (500, 65000)
    | .f _ => (0, 150)
    | .theta _ => (500, 6000)
    | .kp => (0, 200)
    | .ki => (0, 50)
    | .boost => (0, 50000)
    | .impactTime => (0, 500)
    | .lLow => (200, 5000)) ∧
  (∀ (v : Values) (x i : Nat),
    (∀ k : Fin 9, (v.setField (.h k) x).hAt i = if i = k then x else v.hAt i) ∧
    (∀ k : Fin 8, 1 ≤ i → (v.setField (.f k) x).fAt i = if i = k + 1 then x else v.fAt i) ∧
    (∀ k : Fin 7, 1 ≤ i → (v.setField (.theta k) x).thetaAt i = if i = k + 1 then x else v.thetaAt i) ∧
    (∀ k : Fin 9, v.setField (.h k) x = { v with h := (v.setField (.h k) x).h }) ∧
    (∀ k : Fin 8, v.setField (.f k) x = { v with f := (v.setField (.f k) x).f }) ∧
    (∀ k : Fin 7, v.setField (.theta k) x = { v with theta := (v.setField (.theta k) x).theta }) ∧
    v.setField .vTop x = { v with vTop := x } ∧ v.setField .kp x = { v with kp := x } ∧
    v.setField .ki x = { v with ki := x } ∧ v.setField .boost x = { v with boost := x } ∧
    v.setField .impactTime x = { v with impactTime := x } ∧ v.setField .lLow x = { v with lLow := x }) ∧
  ∀ (s : State) (fin : FrameEnd) (sender : BitVec 5) (first second : FieldPair),
    let inRange := fun (fld : SetupField) (x : Nat) => decide (fld.low ≤ x) && decide (x ≤ fld.high)
    let amend := fun (v : Values) (p : FieldPair) => match fieldOfId p.id with
      | none => v
      | some fld =>
        if inRange fld p.value.toNat then v.setField fld p.value.toNat
        else match fld with
          | .h _ => v
          | .vTop | .f _ | .theta _ | .kp | .ki | .boost | .impactTime | .lLow =>
            v.setField fld (if p.value.toNat < fld.low then fld.low else fld.high)
    let adjusts := fun p : FieldPair => match fieldOfId p.id with
      | none | some (.h _) => false
      | some fld => !inRange fld p.value.toNat
    let refuses := fun p : FieldPair => match fieldOfId p.id with
      | none => true
      | some (.h k) => !inRange (.h k) p.value.toNat
      | some _ => false
    Delivers s .setupFields sender .setup →
    ∃ t, exec (.setupFields fin sender first second) s = .next t ∧
      t.store = { s.store with staging := amend (amend s.store.staging first) second } ∧
      SetsFlags s t fin.now (fun f => (f == .fieldAdjusted && (adjusts first || adjusts second)) ||
        (f == .fieldRefused && (refuses first || refuses second))) ∧
      KeepsReports s t ∧ t.link = (Heard s fin).link ∧ t.ec = (Heard s fin).ec ∧
      t.ldr = s.ldr ∧ t.seq = s.seq ∧ t.trk = s.trk ∧ t.lp = s.lp ∧ t.cas = s.cas ∧ t.sens = s.sens ∧
      t.hold = s.hold ∧ t.txq = s.txq ∧ SameQueue s t

/-- R72, R97 to R100, R103: the checks of a SETUP-CLOSE in their order and its four outcomes. -/
def Obligations.CloseIsCheckedInOrder : Prop :=
  ∀ (s : State) (fin : FrameEnd) (sender : BitVec 5) (tag : Tag),
    let v := s.store.staging
    let n := s.ldr.image.n
    let i := s.position
    let falling := ∀ k, k < n → v.hAt (k + 1) < v.hAt k
    let table := s.store.table
    let record : Record :=
      { tag := tag, values := v, state := .waiting,
        base := roundNat (v.vTop * v.hAt n * (1000 + v.fAt n)) (v.hAt i * (1000 + v.fAt i)) }
    let binds := (s.seq.bite.any fun b => b.tag == tag) && !(table.any fun r => r.state == .entered)
    let kept := fun t : State => t.link = (Heard s fin).link ∧ t.ec = (Heard s fin).ec ∧ t.ldr = s.ldr ∧
      t.seq = s.seq ∧ t.trk = s.trk ∧ t.lp = s.lp ∧ t.cas = s.cas ∧ t.sens = s.sens ∧ t.hold = s.hold ∧
      t.txq = s.txq ∧ KeepsReports s t ∧ SameQueue s t ∧ t.store.staging = v
    let refused := fun (t : State) (p : StickyFlag → Bool) => t.store.table = table ∧ SetsFlags s t fin.now p ∧ kept t
    Delivers s .setupClose sender .setup → TableLawful table →
    ∃ t, exec (.setupClose fin sender tag) s = .next t ∧
      (tag = 0 ∨ ¬falling → refused t fun f => f == .closeRefused) ∧
      (tag ≠ 0 → falling → ∀ r ∈ table, r.tag = tag → r.state = .entered → refused t fun f => f == .closeRefused) ∧
      (tag ≠ 0 → falling → ∀ r ∈ table, r.tag = tag → r.state = .waiting →
        t.store.table = (table.map fun x => if x.tag = tag then record else x) ∧ t.rep = s.rep ∧ kept t) ∧
      (tag ≠ 0 → falling → (∀ r ∈ table, r.tag ≠ tag) → table.length = 3 →
        refused t fun f => f == .closeRefused || f == .scheduleFull) ∧
      (tag ≠ 0 → falling → (∀ r ∈ table, r.tag ≠ tag) → table.length < 3 →
        t.store.table = table ++ [if binds then { record with state := .entered } else record] ∧ t.rep = s.rep ∧ kept t)

/-- R101: a SETUP-CANCEL removes the WAITING record of its tag, and otherwise changes nothing but CLOSE-REFUSED.

A lookup of the cancelled tag is substituted from then on.

R102: a SETUP-CLEAR sets staging to the defaults of the image and changes nothing else; with no record in the table every
lookup follows the defaults. -/
def Obligations.CancelAndClear : Prop :=
  (∀ (s : State) (fin : FrameEnd) (sender : BitVec 5) (tag : Tag),
    Delivers s .setupCancel sender .setup → TableLawful s.store.table →
    ((∃ r ∈ s.store.table, r.tag = tag ∧ r.state = .waiting) →
      let u := (Heard s fin).setStore { s.store with table := s.store.table.filter fun r => r.tag != tag }
      exec (.setupCancel fin sender tag) s = .next u ∧ findRecord u.store.table tag = none ∧
      (u.lookup tag).substituted = true) ∧
    ((∀ r ∈ s.store.table, r.tag = tag → r.state = .entered) →
      ∃ t, exec (.setupCancel fin sender tag) s = .next t ∧ t.store = s.store ∧
        SetsFlags s t fin.now (fun f => f == .closeRefused) ∧ KeepsReports s t ∧
        t.link = (Heard s fin).link ∧ t.ec = (Heard s fin).ec ∧ t.ldr = s.ldr ∧ t.seq = s.seq ∧ t.trk = s.trk ∧
        t.lp = s.lp ∧ t.cas = s.cas ∧ t.sens = s.sens ∧ t.hold = s.hold ∧ t.txq = s.txq ∧ SameQueue s t)) ∧
  ∀ (s : State) (fin : FrameEnd) (sender : BitVec 5),
    Delivers s .setupClear sender .setup →
    let u := (Heard s fin).setStore { staging := s.ldr.image.defaults, table := s.store.table }
    exec (.setupClear fin sender) s = .next u ∧
    (s.store.table = [] → ∀ x, (u.lookup x).values = s.ldr.image.defaults)

/-- R28, R30, R53, R71, R89, R91, R92, R126, R130, R132, R156, R163, R164, R168, R171, R180, R182: a RESTART. Configured and
addressed, the station starts afresh, into the hold if the filtered line is active; UNCONFIGURED, only slots, link and
reports do (log entry 41); not addressed, nothing does. -/
def Obligations.RestartStartsAfresh : Prop :=
  ∀ (s : State) (fin : FrameEnd) (sender : BitVec 5) (target : Byte),
    let addressed := target = 0 ∨ target.toNat = s.position
    let fresh := fun t : State =>
      t.txq = { s.txq with slots := freeSlots } ∧
      t.ec = { (Heard s fin).ec with txErrors := 0, rxErrors := 0, link := .joining, joinBits := 0, joinAt := fin.now,
                                     dropped := 0, stray := 0 } ∧
      (∀ f, t.stickySet f = false) ∧ t.rep.lastAlarm = none ∧ t.rep.periodFrom = some fin.now ∧
      t.ldr = s.ldr ∧ SameQueue s t
    (Delivers s .restart sender .setup → addressed → ∃ t, exec (.restart fin sender target) s = .next t ∧ fresh t ∧
      t.seq = { stand := if s.hold.filtered then .hold else .empty, bite := none } ∧
      t.trk = { markers := [], entryTag := 0 } ∧ t.store = { staging := s.ldr.image.defaults, table := [] } ∧
      t.lp = { state := if s.atLast then .none else .parked, command := s.ldr.image.thetaRest, integral := 0, trim := 0 } ∧
      t.cas = { factor := 0, limited := false, reference := s.ldr.image.vMin, clamped := false,
                upView := View.neverHeard, downView := View.neverHeard, periodFrom := some fin.now } ∧
      t.hold.ownDrive = false ∧ t.hold.filtered = s.hold.filtered ∧ t.hold.timer = s.hold.timer ∧
      t.hold.qualified = s.hold.qualified ∧ t.hold.others = s.hold.others ∧
      t.sens = { s.sens with drill := none } ∧ t.link = { (Heard s fin).link with flawArmed := false }) ∧
    (Listens s → s.seq.stand = .unconfigured → 24 ≤ sender.toNat → addressed →
      ∃ t, exec (.restart fin sender target) s = .next t ∧ fresh t ∧ SameStand s t ∧ t.link = (Heard s fin).link) ∧
    (¬addressed → (Delivers s .restart sender .setup ∨
        (Listens s ∧ s.seq.stand = .unconfigured ∧ 24 ≤ sender.toNat)) →
      exec (.restart fin sender target) s = .next (Heard s fin))

/-- R123, R124, R156: the rows of a DRILL, the first that applies: strap not asserted, other target, kind 2, kind 1, other
kind. -/
def Obligations.DrillRowsInOrder : Prop :=
  ∀ (s : State) (fin : FrameEnd) (sender : BitVec 5) (target kind : Byte),
    let strayed := countedStray (Heard s fin)
    let addressed := target = 0 ∨ target.toNat = s.position
    Delivers s .drill sender .setup →
    (s.ldr.commissioning = false → exec (.drill fin sender target kind) s = .next strayed) ∧
    (s.ldr.commissioning = true → ¬addressed → exec (.drill fin sender target kind) s = .next (Heard s fin)) ∧
    (s.ldr.commissioning = true → addressed → kind = 2 → exec (.drill fin sender target kind) s =
      .next ((Heard s fin).setLink { (Heard s fin).link with flawArmed := true })) ∧
    (s.ldr.commissioning = true → addressed → kind = 1 → s.seq.stand ≠ .hold → s.sens.drill = none →
      exec (.drill fin sender target kind) s =
        .next ((Heard s fin).setSens { s.sens with drill := some .waiting })) ∧
    (s.ldr.commissioning = true → addressed → kind = 1 → (s.seq.stand = .hold ∨ s.sens.drill.isSome = true) →
      exec (.drill fin sender target kind) s = .next (Heard s fin)) ∧
    (s.ldr.commissioning = true → addressed → kind ≠ 1 → kind ≠ 2 →
      exec (.drill fin sender target kind) s = .next strayed)

/-! ### Link -/

/-- R142 to R145, R149, R157: in the bits of any frame this station sends a receiver finds no error at any bit; with the check
word complemented it finds the mismatch when it has read the last check bit, before the last marker bit, and not earlier. The
frame is 46 + 9 L bits long.

R155: the data bytes of a HEAD-ON, a TAIL-OFF and a CASCADE, the most significant byte of each value first. -/
def Obligations.SentFramesAreSound : Prop :=
  (∀ (tag : Tag) (event : Instant) (age : BitVec 16),
    (TxFrame.headOn tag event).data age = [tag, age.extractLsb' 8 8, age.extractLsb' 0 8] ∧
    (TxFrame.tailOff tag event).data age = [tag, age.extractLsb' 8 8, age.extractLsb' 0 8]) ∧
  (∀ (tag flags : Byte) (c : BitVec 24) (speed : BitVec 16) (age : BitVec 16),
    (TxFrame.cascade tag c.toInt speed.toNat flags).data age =
      [tag, c.extractLsb' 16 8, c.extractLsb' 8 8, c.extractLsb' 0 8, speed.extractLsb' 8 8, speed.extractLsb' 0 8,
       flags]) ∧
  ∀ (f : TxFrame) (sender : BitVec 5) (age : BitVec 16),
    let content := f.content sender age
    (∀ n, receiverFinds ((markedBits content (crc content)).take n) = none) ∧
    (∀ n, receiverFinds ((markedBits content (~~~(crc content))).take n) =
      if 35 + 9 * f.kind.length.toNat ≤ n then some .checkMismatch else none) ∧
    (wireBits content (crc content)).length = 46 + 9 * f.kind.length.toNat

/-- R145, R148 to R150, R152, R169, R170: a frame found in error, once read to its last marker bit as reckoned, ends the
reception, raises REC and is vetoed in ACTIVE and WARNED only, by the link state at the first bit of the slot; before that the
reception holds the bits read, in place of those announced (log entry 45), and the error, and no count changes. A frame rejected
by another station changes no error count; with both bits of the slot recessive there is no rejection, and only the clock moves (log entry 4).

R145, R171, R174: a dominant bit of the slot, whoever drives it, ends every run of recessive bits. Those the frame ends with
count to idle as far as the frame was over for them; the rest go before that count.

The model's choices: the one command is both (log entry 20); an idle reached within the frame stays through its reject bits
(log entry 39); a frame broken by its sender is captured too (log entry 44); where the recessive bits at the end of a frame are
held (log entry 46); for how many bits the frame was over comes with the command (log entry 49); and the first bit of the slot
is two bit times before that end (log entry 52). -/
def Obligations.DiscardedFrames : Prop :=
  ∀ (s : State) (now : Instant) (bits : List Bool) (first second : Bool) (past : Nat) (e : RxError),
    Attends s →
    let reckoned : Option Nat := if 17 ≤ bits.length then
        some (min 8 (8 * (bits.getD 13 false).toNat + 4 * (bits.getD 14 false).toNat + 2 * (bits.getD 15 false).toNat +
          (bits.getD 16 false).toNat))
      else none
    let trailing := fun read : List Bool => (read.reverse.takeWhile id).length
    let idleAt := fun read : List Bool => (s.link.idle && s.link.reception.any Reception.error) ||
      (read.drop (read.length - past)).tails.any fun rest => decide (10 ≤ (rest.takeWhile id).length)
    let bit := match s.ldr.rateCode.toNat with | 0 => 8 | 1 => 4 | 2 => 2 | _ => 1
    let joinedWithin := s.ec.silentTo.any fun left => decide (elapsed now left / bit < 2)
    let vetoes := (s.ec.link == .active || s.ec.link == .warned) && !joinedWithin
    let slotRun := if !second || vetoes then 0 else if !first then 1 else trailing bits + 2
    let read := bits ++ [first && !vetoes, second && !vetoes]
    let rec' := if 255 < s.ec.rxErrors + 1 then 255 else s.ec.rxErrors + 1
    (Listens s → (first && second) = false → exec (.frameRejected ⟨now, ⟨first, second⟩⟩) s =
      .next ((s.setClock now).setLink { s.link with
        reception := none, recessive := 0, recessiveAt := now, carried := if second then 1 else 0, idle := false
        extraWait := false, capture := now, rejectDriven := false })) ∧
    ((first && second) = true → OnlyClock (.frameRejected ⟨now, ⟨first, second⟩⟩) s) ∧
    (receiverFinds bits = some e → (∀ l, reckoned = some l → bits.length < 36 + 9 * l) →
      exec (.receiveError now ⟨bits, ⟨first, second⟩, past⟩) s = .next ((s.setClock now).setLink
        { s.link with recessive := min past (trailing bits), recessiveAt := now
                      carried := trailing bits - min past (trailing bits)
                      rejectDriven := false, extraWait := false, idle := idleAt bits
                      reception := some
                        { bits := bits.length + 1, bitsAt := now, error := true
                          frame := bits ++ ((s.link.reception.map Reception.frame).getD []).drop bits.length } })) ∧
    (∀ l, receiverFinds bits = some e → reckoned = some l → 36 + 9 * l ≤ bits.length →
      exec (.receiveError now ⟨bits, ⟨first, second⟩, past⟩) s = .next (((s.setClock now).setLink
        { s.link with reception := none, recessive := min past slotRun, recessiveAt := now
                      carried := slotRun - min past slotRun, idle := idleAt read
                      extraWait := false, capture := now, rejectDriven := vetoes }).setEc
        (if s.ec.link = .offLink then s.ec else
          { s.ec with
            rxErrors := rec'
            link := if s.ec.link = .joining then .joining
              else if 128 ≤ s.ec.txErrors ∨ 128 ≤ rec' then .muted
              else if 64 ≤ s.ec.txErrors ∨ 64 ≤ rec' then .warned else .active })))

/-- R145, R146, R153, R157, R162, R172: the line is idle once 10 recessive bits are counted, 18 after an attempt of a MUTED
station, and stays so until a start bit. At a start bit on the idle line the chosen frame's slot goes into transmission,
with a new age and check word, complemented while FLAW-FRAME is armed; a station that puts up no frame becomes a receiver.

R157: the drill stays armed until the last check bit has been sent, 36 + 9 L bit times after the beginning of the start bit (log
entries 19, 34).

R141, R149: the bits taken of the frame being received, and its length from the 18th bit on (log entries 19, 45).

The model's choices: FRAME_START as well as CONTEST_START starts a contest (log entry 21); the saturated mark is set at the
start bit (log entry 27); a FRAME_START replaces a reception that stands, an error held in it included, and reports nothing
for it (log entry 38); LINE_IDLE acts in a frame in error and moves only the clock in one without an error (log entry 39); FRAME_START
brings the frame's bits (log entry 45); LINE_IDLE brings the recessive bits before those counted (log entry 46); the recessive
count is 0 from the start bit on (log entry 47). -/
def Obligations.IdleAndContest : Prop :=
  ∀ (s : State) (now : Instant) (bits before : Nat) (i : Fin 4) (x : Slot) (frame : List Bool),
    let bit := match s.ldr.rateCode.toNat with | 0 => 8 | 1 => 4 | 2 => 2 | _ => 1
    let counted := s.link.recessive + elapsed now s.link.recessiveAt / bit
    Attends s →
    ((∀ r, s.link.reception = some r → r.error = true) → bits ≤ counted →
      exec (.lineIdle now ⟨bits, before⟩) s = .next ((s.setClock now).setLink
      { s.link with recessive := bits, recessiveAt := now, carried := before
                    idle := s.link.idle || decide ((if s.link.extraWait then 18 else 10) ≤ bits) })) ∧
    (counted < bits ∨ (∃ r, s.link.reception = some r ∧ r.error = false) → OnlyClock (.lineIdle now ⟨bits, before⟩) s) ∧
    (s.link.idle = true → s.ec.link.sends = true → chooseFrame s.txq.slots = some (i, x) →
      let saturated := x.saturated || ((x.frame.event.map fun e => decide (65535 ≤ roundNat (elapsed now e) 10)).getD false)
      let age : BitVec 16 := match x.frame.event with
        | some e => if saturated then 65535 else BitVec.ofNat 16 (roundNat (elapsed now e) 10)
        | none => 0
      let check := crc (x.frame.content s.sender age)
      let t := ((s.setClock now).setTxq { s.txq with
          slots := s.txq.slots.set i (some { x with saturated := saturated, inTransmission := true }) }).setLink
        { s.link with recessive := 0, recessiveAt := now, carried := 0, idle := false, reception := none,
                      rejectDriven := false
                      attempt := some { slot := i, bits := 0, bitsAt := now, age := age,
                                        check := if s.link.flawArmed then ~~~check else check,
                                        flawed := s.link.flawArmed, breaking := false } }
      let checkEnds := 36 + 9 * x.frame.kind.length.toNat
      exec (.contestStart now) s = .next t ∧ exec (.frameStart ⟨now, frame⟩) s = .next t ∧
      (∀ later : Instant, (t.setClock later).flawStillArmed =
        (s.link.flawArmed && decide (elapsed later now / bit < checkEnds))) ∧
      ∀ a, t.link.attempt = some a → checkWordSentAt t a = now + BitVec.ofNat 32 (checkEnds * bit)) ∧
    (s.link.idle = false ∨ s.ec.link.sends = false ∨ chooseFrame s.txq.slots = none →
      let length : Option Nat := if 17 ≤ frame.length then
          some (min 8 (8 * (frame.getD 13 false).toNat + 4 * (frame.getD 14 false).toNat + 2 * (frame.getD 15 false).toNat +
            (frame.getD 16 false).toNat))
        else none
      let t := ((s.setClock now).setLink
        { s.link with recessive := 0, recessiveAt := now, carried := 0, idle := false, extraWait := false
                      rejectDriven := false
                      reception := some { bits := 0, bitsAt := now, frame := frame, error := false } }).setEc
        { s.ec with joinBits := 0, joinAt := now, spanBits := 0, spanAt := now, silentTo := none }
      exec (.frameStart ⟨now, frame⟩) s = .next t ∧
      ∀ later : Instant,
        let taken := min (39 + 9 * length.getD 8) (elapsed later now / bit)
        (t.setClock later).bitsTaken = taken ∧
        (t.setClock later).takenBits = (false :: frame).take taken ∧
        (t.setClock later).lengthTaken = if 18 ≤ taken then length else none)

/-- R158 to R161, R164: an offer: discarded in JOINING and OFF-LINK; a CASCADE or STATUS takes the slot of the pending frame
of its kind; else a free slot; else it displaces a less urgent pending frame or is itself dropped, and one is counted.

R162: the frame put up is pending, and no pending frame is more urgent, nor of its urgency and offered before it. -/
def Obligations.QueueOffersAndChoice : Prop :=
  (∀ (s : State) (f : TxFrame),
    let placed := fun i : Fin 4 => s.txq.slots.set i (some
      { frame := f, queuedAt := s.clock, order := s.txq.nextOrder, attempts := 0, inTransmission := false,
        cleared := false, saturated := false })
    let supersedes := fun i : Fin 4 => (f.kind = .cascade ∨ f.kind = .status) ∧
      ∃ x, s.txq.slots[i] = some x ∧ x.inTransmission = false ∧ x.frame.kind = f.kind
    let t := offer f s
    SameStand s t ∧ SameQueue s t ∧ t.link = s.link ∧ t.rep = s.rep ∧ t.clock = s.clock ∧
    (s.ec.link.sends = false → t = s) ∧
    (s.ec.link.sends = true → (∃ i, supersedes i) →
      t.ec = s.ec ∧ ∃ i, supersedes i ∧ t.txq = { slots := placed i, nextOrder := s.txq.nextOrder + 1 }) ∧
    (s.ec.link.sends = true → (¬∃ i, supersedes i) → (∃ i : Fin 4, s.txq.slots[i] = none) →
      t.ec = s.ec ∧ ∃ i : Fin 4, s.txq.slots[i] = none ∧
        t.txq = { slots := placed i, nextOrder := s.txq.nextOrder + 1 }) ∧
    (s.ec.link.sends = true → (¬∃ i, supersedes i) → (∀ i : Fin 4, s.txq.slots[i] ≠ none) →
      t.ec = { s.ec with dropped := if 255 < s.ec.dropped + 1 then 255 else s.ec.dropped + 1 } ∧
      ((t.txq = s.txq ∧ ∀ (i : Fin 4) (x : Slot), s.txq.slots[i] = some x → x.inTransmission = false →
          x.frame.kind.precedence ≤ f.kind.precedence) ∨
       ∃ (i : Fin 4) (x : Slot), s.txq.slots[i] = some x ∧ x.inTransmission = false ∧
          f.kind.precedence < x.frame.kind.precedence ∧
          (∀ (j : Fin 4) (y : Slot), s.txq.slots[j] = some y → y.inTransmission = false →
            y.frame.kind.precedence < x.frame.kind.precedence ∨
            (y.frame.kind.precedence = x.frame.kind.precedence ∧ y.order ≤ x.order)) ∧
          t.txq = { slots := placed i, nextOrder := s.txq.nextOrder + 1 }))) ∧
  ∀ (v : Slots) (i : Fin 4) (x : Slot), chooseFrame v = some (i, x) →
    v[i] = some x ∧ x.inTransmission = false ∧
    ∀ (j : Fin 4) (y : Slot), v[j] = some y → y.inTransmission = false →
      x.frame.kind.precedence < y.frame.kind.precedence ∨
      (x.frame.kind.precedence = y.frame.kind.precedence ∧ x.order ≤ y.order)

/-- R147, R148, R160, R162: a contest is lost at a bit of the arbitration field that this station sends recessive: the frame
returns to pending with its attempt count, or its slot is freed if it was cleared or a newer frame of its superseding kind is
pending, and the station receives, with the bits it has read: its own and the lost one, dominant (R141). A bit error, at any
other bit up to the last marker bit, starts the break of 8 dominant bits. At other bits both commands move only the clock (log entry 4). ARBITRATION_LOST brings the other bits of the winning frame
(log entry 45). -/
def Obligations.LostContestAndBitError : Prop :=
  ∀ (s : State) (now : Instant) (bits : Nat) (rest : List Bool) (a : Attempt) (x : Slot),
    s.link.attempt = some a → a.breaking = false → s.txq.slots[a.slot] = some x →
    let newer := (x.frame.kind = .cascade ∨ x.frame.kind = .status) ∧ ∃ (j : Fin 4) (y : Slot),
      s.txq.slots[j] = some y ∧ j ≠ a.slot ∧ y.inTransmission = false ∧ y.frame.kind = x.frame.kind
    let wire := wireBits (x.frame.content s.sender a.age) a.check
    let contest := 2 ≤ bits ∧ bits ≤ 9 ∧ wire.getD (bits - 1) false = true
    let tested := 1 ≤ bits ∧ bits ≤ 37 + 9 * x.frame.kind.length.toNat ∧ ¬contest
    s.sending = wire ∧
    (contest → ∃ t, exec (.arbitrationLost now ⟨bits, rest⟩) s = .next t ∧
      t.link = { s.link with
        attempt := none, recessive := 0, recessiveAt := now, carried := 0, idle := false, extraWait := false
        rejectDriven := false
        reception := some { bits := bits, bitsAt := now, error := false
                            frame := (wire.take (bits - 1)).drop 1 ++ false :: rest } } ∧
      t.ec = { s.ec with joinBits := 0, joinAt := now, spanBits := 0, spanAt := now, silentTo := none } ∧
      (x.cleared = true ∨ newer → t.txq = { s.txq with slots := s.txq.slots.set a.slot none }) ∧
      (x.cleared = false → ¬newer →
        t.txq = { s.txq with slots := s.txq.slots.set a.slot (some { x with inTransmission := false }) }) ∧
      SameStand s t ∧ t.rep = s.rep ∧ SameQueue s t) ∧
    (tested → ∃ t, exec (.bitError now bits) s = .next t ∧
      t = (s.setClock now).setLink
        { s.link with recessive := 0, recessiveAt := now, carried := 0
                      attempt := some { a with bits := bits, bitsAt := now, breaking := true } } ∧
      t.sending = wire.take bits ++ List.replicate 8 false) ∧
    (¬contest → OnlyClock (.arbitrationLost now ⟨bits, rest⟩) s) ∧ (¬tested → OnlyClock (.bitError now bits) s)

/-- R151, R152, R157, R163, R169, R170, R173: a failed attempt: TEC + 8, OFF-LINK from 200 on, which frees the slots; else
the slot is freed if cleared, dropped at the third failure, or its attempt count rises and it is pending again, unless a
newer frame of its kind is pending (log entry 26). A FLAW-FRAME still armed disarms and sets DRILL-FIRED, with the instant at which
the last bit of the check word ended, unless a break came before that bit (log entry 34). -/
def Obligations.FailedAttempt : Prop :=
  ∀ (s : State) (now : Instant) (a : Attempt) (x : Slot),
    s.link.attempt = some a → s.txq.slots[a.slot] = some x → s.ec.link.sends = true → s.ec.txErrors < 200 →
    let count := s.ec.txErrors + 8
    let newer := (x.frame.kind = .cascade ∨ x.frame.kind = .status) ∧ ∃ (j : Fin 4) (y : Slot),
      s.txq.slots[j] = some y ∧ j ≠ a.slot ∧ y.inTransmission = false ∧ y.frame.kind = x.frame.kind
    let flawSent := s.link.flawArmed && a.flawed && (!a.breaking || decide (36 + 9 * x.frame.kind.length.toNat ≤ a.bits))
    ∃ t, exec (.attemptFailed now) s = .next t ∧
      t.ec.txErrors = count ∧ t.ec.rxErrors = s.ec.rxErrors ∧ t.ec.stray = s.ec.stray ∧
      t.ec.link = (if 200 ≤ count then .offLink
        else if 128 ≤ count ∨ 128 ≤ s.ec.rxErrors then .muted
        else if 64 ≤ count ∨ 64 ≤ s.ec.rxErrors then .warned else .active) ∧
      (200 ≤ count → t.ec.spanBits = 0 ∧ t.ec.spanAt = now ∧ t.ec.spans = 0 ∧ t.txq.slots = freeSlots) ∧
      t.ec.dropped = (if x.cleared = false ∧ 2 ≤ x.attempts then
        (if 255 < s.ec.dropped + 1 then 255 else s.ec.dropped + 1) else s.ec.dropped) ∧
      (count < 200 → (x.cleared = true ∨ 2 ≤ x.attempts ∨ newer) →
        t.txq.slots = s.txq.slots.set a.slot none) ∧
      (count < 200 → x.cleared = false → x.attempts < 2 → ¬newer → t.txq.slots =
        s.txq.slots.set a.slot (some { x with attempts := x.attempts + 1, inTransmission := false })) ∧
      t.link = { s.link with
        attempt := none, recessive := 0, recessiveAt := now, carried := 0, idle := false
        extraWait := decide (t.ec.link = .muted)
        capture := if a.breaking then s.link.capture else now
        flawArmed := s.link.flawArmed && !flawSent } ∧
      (∀ f, t.stickyMark f = if f = .drillFired ∧ flawSent = true then some ⟨checkWordSentAt s a, s.txq.nextOrder⟩
        else s.stickyMark f) ∧
      KeepsReports s t ∧ SameStand s t ∧ SameQueue s t

/-- R151, R152, R157, R169, R170, R182: a succeeded attempt: TEC - 1, the slot freed, and a STATUS frame clears the sticky
flags it carried as set whose last setting came before its offer. What came before is told by the order of offers (log entry
33), and a FLAW-FRAME still armed sets DRILL-FIRED with the instant at which the last bit of the check word ended (log entry 34):
the model's choices. -/
def Obligations.SucceededAttempt : Prop :=
  ∀ (s : State) (now : Instant) (a : Attempt) (x : Slot),
    s.link.attempt = some a → a.breaking = false → s.txq.slots[a.slot] = some x → s.ec.link.sends = true →
    let flagsAfter := fun f : StickyFlag =>
      let mark := if f = .drillFired ∧ (s.link.flawArmed && a.flawed) = true then
          some ⟨checkWordSentAt s a, s.txq.nextOrder⟩
        else s.stickyMark f
      match x.frame with
      | .status data => if carriesFlag data f && mark.any (fun m => decide (m.order ≤ x.order)) then none else mark
      | .headOn .. | .tailOff .. | .cascade .. | .alarm .. => mark
    ∃ t, exec (.attemptSucceeded now) s = .next t ∧
      t.ec = { s.ec with
        txErrors := s.ec.txErrors - 1
        link := if 128 ≤ s.ec.txErrors - 1 ∨ 128 ≤ s.ec.rxErrors then .muted
          else if 64 ≤ s.ec.txErrors - 1 ∨ 64 ≤ s.ec.rxErrors then .warned else .active } ∧
      t.txq = { s.txq with slots := s.txq.slots.set a.slot none } ∧
      t.link = { s.link with attempt := none, recessive := 0, recessiveAt := now, carried := 0, idle := false
                             extraWait := decide (t.ec.link = .muted)
                             capture := now, flawArmed := s.link.flawArmed && !a.flawed } ∧
      (∀ f, t.stickyMark f = flagsAfter f) ∧ KeepsReports s t ∧ SameStand s t ∧ SameQueue s t

/-- R171, R174: the recessive bits counted by the clock, from the entry or the span's beginning on and no more than the present
run of them (log entries 19, 46): 16 end JOINING, with the state the counts give, and 16 complete an idle span of an OFF-LINK
station, from which the next span begins; the 64th sets both counts to 0 and the state ACTIVE. With fewer bits, or in another
link state, the commands move only the clock (log entry 4). The instant of either change is kept for the reject slot (R170; log
entry 52). -/
def Obligations.JoiningAndRecovery : Prop :=
  ∀ (s : State) (now : Instant),
    let bit := match s.ldr.rateCode.toNat with | 0 => 8 | 1 => 4 | 2 => 2 | _ => 1
    let since := fun start : Instant => elapsed now start / bit
    let inFrame := s.ldr.phase != .running || s.link.attempt.isSome || s.link.reception.any fun r => !r.error
    let run := s.link.carried + s.link.recessive + (if inFrame then 0 else since s.link.recessiveAt)
    let joined := min run (s.ec.joinBits + since s.ec.joinAt)
    let span := min run (s.ec.spanBits + since s.ec.spanAt)
    (s.ldr.phase = .running → s.ec.link = .joining → 16 ≤ joined →
      exec (.joiningEnd now) s = .next ((s.setClock now).setEc { s.ec with
        joinBits := 16, joinAt := now, silentTo := some now
        link := if 128 ≤ s.ec.txErrors ∨ 128 ≤ s.ec.rxErrors then .muted
          else if 64 ≤ s.ec.txErrors ∨ 64 ≤ s.ec.rxErrors then .warned else .active })) ∧
    (s.ldr.phase ≠ .running ∨ s.ec.link ≠ .joining ∨ joined < 16 → OnlyClock (.joiningEnd now) s) ∧
    (s.ec.link = .offLink → 16 ≤ span → s.ec.spans + 1 < 64 →
      exec (.offLinkIdleSpan now) s =
        .next ((s.setClock now).setEc { s.ec with spanBits := 0, spanAt := now, spans := s.ec.spans + 1 })) ∧
    (s.ec.link = .offLink → 16 ≤ span → 64 ≤ s.ec.spans + 1 →
      let t := (s.setClock now).setEc { s.ec with
        spanBits := 0, spanAt := now, spans := s.ec.spans + 1, txErrors := 0, rxErrors := 0, link := .active
        silentTo := some now }
      exec (.offLinkIdleSpan now) s = .next t ∧ exec (.offLinkRecovery now) s = .next t) ∧
    (s.ec.link ≠ .offLink ∨ span < 16 → OnlyClock (.offLinkIdleSpan now) s ∧ OnlyClock (.offLinkRecovery now) s) ∧
    (s.ec.spans + 1 < 64 → OnlyClock (.offLinkRecovery now) s)

end
end

