-- ==== Sys2Proof/Laws/State.lean ====
section
/-! SUPPORT. Every field after every update of the state, so that no proof unfolds a record update; and an update of one
part by what it already holds is nothing. -/

namespace Sys2Proof.Machine

section
variable (s : State) (x : List Instr)
@[simp] theorem setPending_pending : (s.setPending x).pending = x := rfl
@[simp] theorem setPending_clock : (s.setPending x).clock = s.clock := rfl
@[simp] theorem setPending_draws : (s.setPending x).draws = s.draws := rfl
@[simp] theorem setPending_ldr : (s.setPending x).ldr = s.ldr := rfl
@[simp] theorem setPending_seq : (s.setPending x).seq = s.seq := rfl
@[simp] theorem setPending_trk : (s.setPending x).trk = s.trk := rfl
@[simp] theorem setPending_lp : (s.setPending x).lp = s.lp := rfl
@[simp] theorem setPending_cas : (s.setPending x).cas = s.cas := rfl
@[simp] theorem setPending_store : (s.setPending x).store = s.store := rfl
@[simp] theorem setPending_sens : (s.setPending x).sens = s.sens := rfl
@[simp] theorem setPending_hold : (s.setPending x).hold = s.hold := rfl
@[simp] theorem setPending_link : (s.setPending x).link = s.link := rfl
@[simp] theorem setPending_txq : (s.setPending x).txq = s.txq := rfl
@[simp] theorem setPending_ec : (s.setPending x).ec = s.ec := rfl
@[simp] theorem setPending_rep : (s.setPending x).rep = s.rep := rfl
end

section
variable (s : State) (x : Instant)
@[simp] theorem setClock_pending : (s.setClock x).pending = s.pending := rfl
@[simp] theorem setClock_clock : (s.setClock x).clock = x := rfl
@[simp] theorem setClock_draws : (s.setClock x).draws = s.draws := rfl
@[simp] theorem setClock_ldr : (s.setClock x).ldr = s.ldr := rfl
@[simp] theorem setClock_seq : (s.setClock x).seq = s.seq := rfl
@[simp] theorem setClock_trk : (s.setClock x).trk = s.trk := rfl
@[simp] theorem setClock_lp : (s.setClock x).lp = s.lp := rfl
@[simp] theorem setClock_cas : (s.setClock x).cas = s.cas := rfl
@[simp] theorem setClock_store : (s.setClock x).store = s.store := rfl
@[simp] theorem setClock_sens : (s.setClock x).sens = s.sens := rfl
@[simp] theorem setClock_hold : (s.setClock x).hold = s.hold := rfl
@[simp] theorem setClock_link : (s.setClock x).link = s.link := rfl
@[simp] theorem setClock_txq : (s.setClock x).txq = s.txq := rfl
@[simp] theorem setClock_ec : (s.setClock x).ec = s.ec := rfl
@[simp] theorem setClock_rep : (s.setClock x).rep = s.rep := rfl
end

section
variable (s : State) (x : Nat)
@[simp] theorem setDraws_pending : (s.setDraws x).pending = s.pending := rfl
@[simp] theorem setDraws_clock : (s.setDraws x).clock = s.clock := rfl
@[simp] theorem setDraws_draws : (s.setDraws x).draws = x := rfl
@[simp] theorem setDraws_ldr : (s.setDraws x).ldr = s.ldr := rfl
@[simp] theorem setDraws_seq : (s.setDraws x).seq = s.seq := rfl
@[simp] theorem setDraws_trk : (s.setDraws x).trk = s.trk := rfl
@[simp] theorem setDraws_lp : (s.setDraws x).lp = s.lp := rfl
@[simp] theorem setDraws_cas : (s.setDraws x).cas = s.cas := rfl
@[simp] theorem setDraws_store : (s.setDraws x).store = s.store := rfl
@[simp] theorem setDraws_sens : (s.setDraws x).sens = s.sens := rfl
@[simp] theorem setDraws_hold : (s.setDraws x).hold = s.hold := rfl
@[simp] theorem setDraws_link : (s.setDraws x).link = s.link := rfl
@[simp] theorem setDraws_txq : (s.setDraws x).txq = s.txq := rfl
@[simp] theorem setDraws_ec : (s.setDraws x).ec = s.ec := rfl
@[simp] theorem setDraws_rep : (s.setDraws x).rep = s.rep := rfl
end

section
variable (s : State) (x : Loader)
@[simp] theorem setLdr_pending : (s.setLdr x).pending = s.pending := rfl
@[simp] theorem setLdr_clock : (s.setLdr x).clock = s.clock := rfl
@[simp] theorem setLdr_draws : (s.setLdr x).draws = s.draws := rfl
@[simp] theorem setLdr_ldr : (s.setLdr x).ldr = x := rfl
@[simp] theorem setLdr_seq : (s.setLdr x).seq = s.seq := rfl
@[simp] theorem setLdr_trk : (s.setLdr x).trk = s.trk := rfl
@[simp] theorem setLdr_lp : (s.setLdr x).lp = s.lp := rfl
@[simp] theorem setLdr_cas : (s.setLdr x).cas = s.cas := rfl
@[simp] theorem setLdr_store : (s.setLdr x).store = s.store := rfl
@[simp] theorem setLdr_sens : (s.setLdr x).sens = s.sens := rfl
@[simp] theorem setLdr_hold : (s.setLdr x).hold = s.hold := rfl
@[simp] theorem setLdr_link : (s.setLdr x).link = s.link := rfl
@[simp] theorem setLdr_txq : (s.setLdr x).txq = s.txq := rfl
@[simp] theorem setLdr_ec : (s.setLdr x).ec = s.ec := rfl
@[simp] theorem setLdr_rep : (s.setLdr x).rep = s.rep := rfl
end

section
variable (s : State) (x : Sequencer)
@[simp] theorem setSeq_pending : (s.setSeq x).pending = s.pending := rfl
@[simp] theorem setSeq_clock : (s.setSeq x).clock = s.clock := rfl
@[simp] theorem setSeq_draws : (s.setSeq x).draws = s.draws := rfl
@[simp] theorem setSeq_ldr : (s.setSeq x).ldr = s.ldr := rfl
@[simp] theorem setSeq_seq : (s.setSeq x).seq = x := rfl
@[simp] theorem setSeq_trk : (s.setSeq x).trk = s.trk := rfl
@[simp] theorem setSeq_lp : (s.setSeq x).lp = s.lp := rfl
@[simp] theorem setSeq_cas : (s.setSeq x).cas = s.cas := rfl
@[simp] theorem setSeq_store : (s.setSeq x).store = s.store := rfl
@[simp] theorem setSeq_sens : (s.setSeq x).sens = s.sens := rfl
@[simp] theorem setSeq_hold : (s.setSeq x).hold = s.hold := rfl
@[simp] theorem setSeq_link : (s.setSeq x).link = s.link := rfl
@[simp] theorem setSeq_txq : (s.setSeq x).txq = s.txq := rfl
@[simp] theorem setSeq_ec : (s.setSeq x).ec = s.ec := rfl
@[simp] theorem setSeq_rep : (s.setSeq x).rep = s.rep := rfl
end

section
variable (s : State) (x : Tracking)
@[simp] theorem setTrk_pending : (s.setTrk x).pending = s.pending := rfl
@[simp] theorem setTrk_clock : (s.setTrk x).clock = s.clock := rfl
@[simp] theorem setTrk_draws : (s.setTrk x).draws = s.draws := rfl
@[simp] theorem setTrk_ldr : (s.setTrk x).ldr = s.ldr := rfl
@[simp] theorem setTrk_seq : (s.setTrk x).seq = s.seq := rfl
@[simp] theorem setTrk_trk : (s.setTrk x).trk = x := rfl
@[simp] theorem setTrk_lp : (s.setTrk x).lp = s.lp := rfl
@[simp] theorem setTrk_cas : (s.setTrk x).cas = s.cas := rfl
@[simp] theorem setTrk_store : (s.setTrk x).store = s.store := rfl
@[simp] theorem setTrk_sens : (s.setTrk x).sens = s.sens := rfl
@[simp] theorem setTrk_hold : (s.setTrk x).hold = s.hold := rfl
@[simp] theorem setTrk_link : (s.setTrk x).link = s.link := rfl
@[simp] theorem setTrk_txq : (s.setTrk x).txq = s.txq := rfl
@[simp] theorem setTrk_ec : (s.setTrk x).ec = s.ec := rfl
@[simp] theorem setTrk_rep : (s.setTrk x).rep = s.rep := rfl
end

section
variable (s : State) (x : Looper)
@[simp] theorem setLp_pending : (s.setLp x).pending = s.pending := rfl
@[simp] theorem setLp_clock : (s.setLp x).clock = s.clock := rfl
@[simp] theorem setLp_draws : (s.setLp x).draws = s.draws := rfl
@[simp] theorem setLp_ldr : (s.setLp x).ldr = s.ldr := rfl
@[simp] theorem setLp_seq : (s.setLp x).seq = s.seq := rfl
@[simp] theorem setLp_trk : (s.setLp x).trk = s.trk := rfl
@[simp] theorem setLp_lp : (s.setLp x).lp = x := rfl
@[simp] theorem setLp_cas : (s.setLp x).cas = s.cas := rfl
@[simp] theorem setLp_store : (s.setLp x).store = s.store := rfl
@[simp] theorem setLp_sens : (s.setLp x).sens = s.sens := rfl
@[simp] theorem setLp_hold : (s.setLp x).hold = s.hold := rfl
@[simp] theorem setLp_link : (s.setLp x).link = s.link := rfl
@[simp] theorem setLp_txq : (s.setLp x).txq = s.txq := rfl
@[simp] theorem setLp_ec : (s.setLp x).ec = s.ec := rfl
@[simp] theorem setLp_rep : (s.setLp x).rep = s.rep := rfl
end

section
variable (s : State) (x : Cascade)
@[simp] theorem setCas_pending : (s.setCas x).pending = s.pending := rfl
@[simp] theorem setCas_clock : (s.setCas x).clock = s.clock := rfl
@[simp] theorem setCas_draws : (s.setCas x).draws = s.draws := rfl
@[simp] theorem setCas_ldr : (s.setCas x).ldr = s.ldr := rfl
@[simp] theorem setCas_seq : (s.setCas x).seq = s.seq := rfl
@[simp] theorem setCas_trk : (s.setCas x).trk = s.trk := rfl
@[simp] theorem setCas_lp : (s.setCas x).lp = s.lp := rfl
@[simp] theorem setCas_cas : (s.setCas x).cas = x := rfl
@[simp] theorem setCas_store : (s.setCas x).store = s.store := rfl
@[simp] theorem setCas_sens : (s.setCas x).sens = s.sens := rfl
@[simp] theorem setCas_hold : (s.setCas x).hold = s.hold := rfl
@[simp] theorem setCas_link : (s.setCas x).link = s.link := rfl
@[simp] theorem setCas_txq : (s.setCas x).txq = s.txq := rfl
@[simp] theorem setCas_ec : (s.setCas x).ec = s.ec := rfl
@[simp] theorem setCas_rep : (s.setCas x).rep = s.rep := rfl
end

section
variable (s : State) (x : Store)
@[simp] theorem setStore_pending : (s.setStore x).pending = s.pending := rfl
@[simp] theorem setStore_clock : (s.setStore x).clock = s.clock := rfl
@[simp] theorem setStore_draws : (s.setStore x).draws = s.draws := rfl
@[simp] theorem setStore_ldr : (s.setStore x).ldr = s.ldr := rfl
@[simp] theorem setStore_seq : (s.setStore x).seq = s.seq := rfl
@[simp] theorem setStore_trk : (s.setStore x).trk = s.trk := rfl
@[simp] theorem setStore_lp : (s.setStore x).lp = s.lp := rfl
@[simp] theorem setStore_cas : (s.setStore x).cas = s.cas := rfl
@[simp] theorem setStore_store : (s.setStore x).store = x := rfl
@[simp] theorem setStore_sens : (s.setStore x).sens = s.sens := rfl
@[simp] theorem setStore_hold : (s.setStore x).hold = s.hold := rfl
@[simp] theorem setStore_link : (s.setStore x).link = s.link := rfl
@[simp] theorem setStore_txq : (s.setStore x).txq = s.txq := rfl
@[simp] theorem setStore_ec : (s.setStore x).ec = s.ec := rfl
@[simp] theorem setStore_rep : (s.setStore x).rep = s.rep := rfl
end

section
variable (s : State) (x : Sensing)
@[simp] theorem setSens_pending : (s.setSens x).pending = s.pending := rfl
@[simp] theorem setSens_clock : (s.setSens x).clock = s.clock := rfl
@[simp] theorem setSens_draws : (s.setSens x).draws = s.draws := rfl
@[simp] theorem setSens_ldr : (s.setSens x).ldr = s.ldr := rfl
@[simp] theorem setSens_seq : (s.setSens x).seq = s.seq := rfl
@[simp] theorem setSens_trk : (s.setSens x).trk = s.trk := rfl
@[simp] theorem setSens_lp : (s.setSens x).lp = s.lp := rfl
@[simp] theorem setSens_cas : (s.setSens x).cas = s.cas := rfl
@[simp] theorem setSens_store : (s.setSens x).store = s.store := rfl
@[simp] theorem setSens_sens : (s.setSens x).sens = x := rfl
@[simp] theorem setSens_hold : (s.setSens x).hold = s.hold := rfl
@[simp] theorem setSens_link : (s.setSens x).link = s.link := rfl
@[simp] theorem setSens_txq : (s.setSens x).txq = s.txq := rfl
@[simp] theorem setSens_ec : (s.setSens x).ec = s.ec := rfl
@[simp] theorem setSens_rep : (s.setSens x).rep = s.rep := rfl
end

section
variable (s : State) (x : HoldMonitor)
@[simp] theorem setHold_pending : (s.setHold x).pending = s.pending := rfl
@[simp] theorem setHold_clock : (s.setHold x).clock = s.clock := rfl
@[simp] theorem setHold_draws : (s.setHold x).draws = s.draws := rfl
@[simp] theorem setHold_ldr : (s.setHold x).ldr = s.ldr := rfl
@[simp] theorem setHold_seq : (s.setHold x).seq = s.seq := rfl
@[simp] theorem setHold_trk : (s.setHold x).trk = s.trk := rfl
@[simp] theorem setHold_lp : (s.setHold x).lp = s.lp := rfl
@[simp] theorem setHold_cas : (s.setHold x).cas = s.cas := rfl
@[simp] theorem setHold_store : (s.setHold x).store = s.store := rfl
@[simp] theorem setHold_sens : (s.setHold x).sens = s.sens := rfl
@[simp] theorem setHold_hold : (s.setHold x).hold = x := rfl
@[simp] theorem setHold_link : (s.setHold x).link = s.link := rfl
@[simp] theorem setHold_txq : (s.setHold x).txq = s.txq := rfl
@[simp] theorem setHold_ec : (s.setHold x).ec = s.ec := rfl
@[simp] theorem setHold_rep : (s.setHold x).rep = s.rep := rfl
end

section
variable (s : State) (x : Link)
@[simp] theorem setLink_pending : (s.setLink x).pending = s.pending := rfl
@[simp] theorem setLink_clock : (s.setLink x).clock = s.clock := rfl
@[simp] theorem setLink_draws : (s.setLink x).draws = s.draws := rfl
@[simp] theorem setLink_ldr : (s.setLink x).ldr = s.ldr := rfl
@[simp] theorem setLink_seq : (s.setLink x).seq = s.seq := rfl
@[simp] theorem setLink_trk : (s.setLink x).trk = s.trk := rfl
@[simp] theorem setLink_lp : (s.setLink x).lp = s.lp := rfl
@[simp] theorem setLink_cas : (s.setLink x).cas = s.cas := rfl
@[simp] theorem setLink_store : (s.setLink x).store = s.store := rfl
@[simp] theorem setLink_sens : (s.setLink x).sens = s.sens := rfl
@[simp] theorem setLink_hold : (s.setLink x).hold = s.hold := rfl
@[simp] theorem setLink_link : (s.setLink x).link = x := rfl
@[simp] theorem setLink_txq : (s.setLink x).txq = s.txq := rfl
@[simp] theorem setLink_ec : (s.setLink x).ec = s.ec := rfl
@[simp] theorem setLink_rep : (s.setLink x).rep = s.rep := rfl
end

section
variable (s : State) (x : TransmitQueue)
@[simp] theorem setTxq_pending : (s.setTxq x).pending = s.pending := rfl
@[simp] theorem setTxq_clock : (s.setTxq x).clock = s.clock := rfl
@[simp] theorem setTxq_draws : (s.setTxq x).draws = s.draws := rfl
@[simp] theorem setTxq_ldr : (s.setTxq x).ldr = s.ldr := rfl
@[simp] theorem setTxq_seq : (s.setTxq x).seq = s.seq := rfl
@[simp] theorem setTxq_trk : (s.setTxq x).trk = s.trk := rfl
@[simp] theorem setTxq_lp : (s.setTxq x).lp = s.lp := rfl
@[simp] theorem setTxq_cas : (s.setTxq x).cas = s.cas := rfl
@[simp] theorem setTxq_store : (s.setTxq x).store = s.store := rfl
@[simp] theorem setTxq_sens : (s.setTxq x).sens = s.sens := rfl
@[simp] theorem setTxq_hold : (s.setTxq x).hold = s.hold := rfl
@[simp] theorem setTxq_link : (s.setTxq x).link = s.link := rfl
@[simp] theorem setTxq_txq : (s.setTxq x).txq = x := rfl
@[simp] theorem setTxq_ec : (s.setTxq x).ec = s.ec := rfl
@[simp] theorem setTxq_rep : (s.setTxq x).rep = s.rep := rfl
end

section
variable (s : State) (x : ErrorConfinement)
@[simp] theorem setEc_pending : (s.setEc x).pending = s.pending := rfl
@[simp] theorem setEc_clock : (s.setEc x).clock = s.clock := rfl
@[simp] theorem setEc_draws : (s.setEc x).draws = s.draws := rfl
@[simp] theorem setEc_ldr : (s.setEc x).ldr = s.ldr := rfl
@[simp] theorem setEc_seq : (s.setEc x).seq = s.seq := rfl
@[simp] theorem setEc_trk : (s.setEc x).trk = s.trk := rfl
@[simp] theorem setEc_lp : (s.setEc x).lp = s.lp := rfl
@[simp] theorem setEc_cas : (s.setEc x).cas = s.cas := rfl
@[simp] theorem setEc_store : (s.setEc x).store = s.store := rfl
@[simp] theorem setEc_sens : (s.setEc x).sens = s.sens := rfl
@[simp] theorem setEc_hold : (s.setEc x).hold = s.hold := rfl
@[simp] theorem setEc_link : (s.setEc x).link = s.link := rfl
@[simp] theorem setEc_txq : (s.setEc x).txq = s.txq := rfl
@[simp] theorem setEc_ec : (s.setEc x).ec = x := rfl
@[simp] theorem setEc_rep : (s.setEc x).rep = s.rep := rfl
end

section
variable (s : State) (x : Reporter)
@[simp] theorem setRep_pending : (s.setRep x).pending = s.pending := rfl
@[simp] theorem setRep_clock : (s.setRep x).clock = s.clock := rfl
@[simp] theorem setRep_draws : (s.setRep x).draws = s.draws := rfl
@[simp] theorem setRep_ldr : (s.setRep x).ldr = s.ldr := rfl
@[simp] theorem setRep_seq : (s.setRep x).seq = s.seq := rfl
@[simp] theorem setRep_trk : (s.setRep x).trk = s.trk := rfl
@[simp] theorem setRep_lp : (s.setRep x).lp = s.lp := rfl
@[simp] theorem setRep_cas : (s.setRep x).cas = s.cas := rfl
@[simp] theorem setRep_store : (s.setRep x).store = s.store := rfl
@[simp] theorem setRep_sens : (s.setRep x).sens = s.sens := rfl
@[simp] theorem setRep_hold : (s.setRep x).hold = s.hold := rfl
@[simp] theorem setRep_link : (s.setRep x).link = s.link := rfl
@[simp] theorem setRep_txq : (s.setRep x).txq = s.txq := rfl
@[simp] theorem setRep_ec : (s.setRep x).ec = s.ec := rfl
@[simp] theorem setRep_rep : (s.setRep x).rep = x := rfl
end

/-! Two updates of one part: the last holds. -/

@[simp] theorem setPending_setPending (s : State) (x y : List Instr) : (s.setPending x).setPending y = s.setPending y := rfl
@[simp] theorem setClock_setClock (s : State) (x y : Instant) : (s.setClock x).setClock y = s.setClock y := rfl
@[simp] theorem setDraws_setDraws (s : State) (x y : Nat) : (s.setDraws x).setDraws y = s.setDraws y := rfl
@[simp] theorem setLdr_setLdr (s : State) (x y : Loader) : (s.setLdr x).setLdr y = s.setLdr y := rfl
@[simp] theorem setSeq_setSeq (s : State) (x y : Sequencer) : (s.setSeq x).setSeq y = s.setSeq y := rfl
@[simp] theorem setTrk_setTrk (s : State) (x y : Tracking) : (s.setTrk x).setTrk y = s.setTrk y := rfl
@[simp] theorem setLp_setLp (s : State) (x y : Looper) : (s.setLp x).setLp y = s.setLp y := rfl
@[simp] theorem setCas_setCas (s : State) (x y : Cascade) : (s.setCas x).setCas y = s.setCas y := rfl
@[simp] theorem setStore_setStore (s : State) (x y : Store) : (s.setStore x).setStore y = s.setStore y := rfl
@[simp] theorem setSens_setSens (s : State) (x y : Sensing) : (s.setSens x).setSens y = s.setSens y := rfl
@[simp] theorem setHold_setHold (s : State) (x y : HoldMonitor) : (s.setHold x).setHold y = s.setHold y := rfl
@[simp] theorem setLink_setLink (s : State) (x y : Link) : (s.setLink x).setLink y = s.setLink y := rfl
@[simp] theorem setTxq_setTxq (s : State) (x y : TransmitQueue) : (s.setTxq x).setTxq y = s.setTxq y := rfl
@[simp] theorem setEc_setEc (s : State) (x y : ErrorConfinement) : (s.setEc x).setEc y = s.setEc y := rfl
@[simp] theorem setRep_setRep (s : State) (x y : Reporter) : (s.setRep x).setRep y = s.setRep y := rfl

/-! An update by the present value. -/

@[simp] theorem setPending_self (s : State) : s.setPending s.pending = s := rfl
@[simp] theorem setClock_self (s : State) : s.setClock s.clock = s := rfl
@[simp] theorem setDraws_self (s : State) : s.setDraws s.draws = s := rfl
@[simp] theorem setLdr_self (s : State) : s.setLdr s.ldr = s := rfl
@[simp] theorem setSeq_self (s : State) : s.setSeq s.seq = s := rfl
@[simp] theorem setTrk_self (s : State) : s.setTrk s.trk = s := rfl
@[simp] theorem setLp_self (s : State) : s.setLp s.lp = s := rfl
@[simp] theorem setCas_self (s : State) : s.setCas s.cas = s := rfl
@[simp] theorem setStore_self (s : State) : s.setStore s.store = s := rfl
@[simp] theorem setSens_self (s : State) : s.setSens s.sens = s := rfl
@[simp] theorem setHold_self (s : State) : s.setHold s.hold = s := rfl
@[simp] theorem setLink_self (s : State) : s.setLink s.link = s := rfl
@[simp] theorem setTxq_self (s : State) : s.setTxq s.txq = s := rfl
@[simp] theorem setEc_self (s : State) : s.setEc s.ec = s := rfl
@[simp] theorem setRep_self (s : State) : s.setRep s.rep = s := rfl

end Sys2Proof.Machine
end

