-- ==== Sys2Proof/Laws/Frames.lean ====
section
/-! SUPPORT. What each reading of the state does not depend on, and what each shared operation leaves unchanged: one frame
lemma per operation, for `simp`. -/

namespace Sys2Proof.Machine

/-! ### Readings after an update of a part they do not read -/

section
variable (s : State) (x : List Instr)
@[simp] theorem setPending_position : (s.setPending x).position = s.position := rfl
@[simp] theorem setPending_sender : (s.setPending x).sender = s.sender := rfl
@[simp] theorem setPending_atFirst : (s.setPending x).atFirst = s.atFirst := rfl
@[simp] theorem setPending_atLast : (s.setPending x).atLast = s.atLast := rfl
@[simp] theorem setPending_window : (s.setPending x).window = s.window := rfl
@[simp] theorem setPending_biteTag : (s.setPending x).biteTag = s.biteTag := rfl
@[simp] theorem setPending_measuredAngle : (s.setPending x).measuredAngle = s.measuredAngle := rfl
@[simp] theorem setPending_roleOf (k : FrameKind) (b : BitVec 5) : (s.setPending x).roleOf k b = s.roleOf k b := rfl
@[simp] theorem setPending_lookup (t : Tag) : (s.setPending x).lookup t = s.lookup t := rfl
@[simp] theorem setPending_biteSchedule : (s.setPending x).biteSchedule = s.biteSchedule := rfl
@[simp] theorem setPending_thetaRef : (s.setPending x).thetaRef = s.thetaRef := rfl
@[simp] theorem setPending_stickyMark (f : StickyFlag) : (s.setPending x).stickyMark f = s.stickyMark f := rfl
@[simp] theorem setPending_headInWindow : (s.setPending x).headInWindow = s.headInWindow := rfl
@[simp] theorem setPending_addressed (b : Byte) : (s.setPending x).addressed b = s.addressed b := rfl
@[simp] theorem setPending_wire : (s.setPending x).wire = s.wire := rfl
@[simp] theorem setPending_sending : (s.setPending x).sending = s.sending := rfl
@[simp] theorem setPending_bitsSent : (s.setPending x).bitsSent = s.bitsSent := rfl
@[simp] theorem setPending_bitsTaken : (s.setPending x).bitsTaken = s.bitsTaken := rfl
@[simp] theorem setPending_takenBits : (s.setPending x).takenBits = s.takenBits := rfl
@[simp] theorem setPending_lengthTaken : (s.setPending x).lengthTaken = s.lengthTaken := rfl
@[simp] theorem setPending_recessiveBits : (s.setPending x).recessiveBits = s.recessiveBits := rfl
@[simp] theorem setPending_recessiveRun : (s.setPending x).recessiveRun = s.recessiveRun := rfl
@[simp] theorem setPending_joinBits : (s.setPending x).joinBits = s.joinBits := rfl
@[simp] theorem setPending_spanBits : (s.setPending x).spanBits = s.spanBits := rfl
end

section
variable (s : State) (x : Instant)
@[simp] theorem setClock_position : (s.setClock x).position = s.position := rfl
@[simp] theorem setClock_sender : (s.setClock x).sender = s.sender := rfl
@[simp] theorem setClock_atFirst : (s.setClock x).atFirst = s.atFirst := rfl
@[simp] theorem setClock_atLast : (s.setClock x).atLast = s.atLast := rfl
@[simp] theorem setClock_window : (s.setClock x).window = s.window := rfl
@[simp] theorem setClock_biteTag : (s.setClock x).biteTag = s.biteTag := rfl
@[simp] theorem setClock_measuredAngle : (s.setClock x).measuredAngle = s.measuredAngle := rfl
@[simp] theorem setClock_roleOf (k : FrameKind) (b : BitVec 5) : (s.setClock x).roleOf k b = s.roleOf k b := rfl
@[simp] theorem setClock_lookup (t : Tag) : (s.setClock x).lookup t = s.lookup t := rfl
@[simp] theorem setClock_biteSchedule : (s.setClock x).biteSchedule = s.biteSchedule := rfl
@[simp] theorem setClock_thetaRef : (s.setClock x).thetaRef = s.thetaRef := rfl
@[simp] theorem setClock_stickyMark (f : StickyFlag) : (s.setClock x).stickyMark f = s.stickyMark f := rfl
@[simp] theorem setClock_headInWindow : (s.setClock x).headInWindow = s.headInWindow := rfl
@[simp] theorem setClock_addressed (b : Byte) : (s.setClock x).addressed b = s.addressed b := rfl
@[simp] theorem setClock_wire : (s.setClock x).wire = s.wire := rfl
@[simp] theorem setClock_sending : (s.setClock x).sending = s.sending := rfl
end

section
variable (s : State) (x : Nat)
@[simp] theorem setDraws_position : (s.setDraws x).position = s.position := rfl
@[simp] theorem setDraws_sender : (s.setDraws x).sender = s.sender := rfl
@[simp] theorem setDraws_atFirst : (s.setDraws x).atFirst = s.atFirst := rfl
@[simp] theorem setDraws_atLast : (s.setDraws x).atLast = s.atLast := rfl
@[simp] theorem setDraws_window : (s.setDraws x).window = s.window := rfl
@[simp] theorem setDraws_biteTag : (s.setDraws x).biteTag = s.biteTag := rfl
@[simp] theorem setDraws_measuredAngle : (s.setDraws x).measuredAngle = s.measuredAngle := rfl
@[simp] theorem setDraws_roleOf (k : FrameKind) (b : BitVec 5) : (s.setDraws x).roleOf k b = s.roleOf k b := rfl
@[simp] theorem setDraws_lookup (t : Tag) : (s.setDraws x).lookup t = s.lookup t := rfl
@[simp] theorem setDraws_biteSchedule : (s.setDraws x).biteSchedule = s.biteSchedule := rfl
@[simp] theorem setDraws_thetaRef : (s.setDraws x).thetaRef = s.thetaRef := rfl
@[simp] theorem setDraws_stickyMark (f : StickyFlag) : (s.setDraws x).stickyMark f = s.stickyMark f := rfl
@[simp] theorem setDraws_headInWindow : (s.setDraws x).headInWindow = s.headInWindow := rfl
@[simp] theorem setDraws_addressed (b : Byte) : (s.setDraws x).addressed b = s.addressed b := rfl
@[simp] theorem setDraws_wire : (s.setDraws x).wire = s.wire := rfl
@[simp] theorem setDraws_sending : (s.setDraws x).sending = s.sending := rfl
@[simp] theorem setDraws_bitsSent : (s.setDraws x).bitsSent = s.bitsSent := rfl
@[simp] theorem setDraws_bitsTaken : (s.setDraws x).bitsTaken = s.bitsTaken := rfl
@[simp] theorem setDraws_takenBits : (s.setDraws x).takenBits = s.takenBits := rfl
@[simp] theorem setDraws_lengthTaken : (s.setDraws x).lengthTaken = s.lengthTaken := rfl
@[simp] theorem setDraws_recessiveBits : (s.setDraws x).recessiveBits = s.recessiveBits := rfl
@[simp] theorem setDraws_recessiveRun : (s.setDraws x).recessiveRun = s.recessiveRun := rfl
@[simp] theorem setDraws_joinBits : (s.setDraws x).joinBits = s.joinBits := rfl
@[simp] theorem setDraws_spanBits : (s.setDraws x).spanBits = s.spanBits := rfl
end

section
variable (s : State) (x : Loader)
@[simp] theorem setLdr_biteTag : (s.setLdr x).biteTag = s.biteTag := rfl
@[simp] theorem setLdr_stickyMark (f : StickyFlag) : (s.setLdr x).stickyMark f = s.stickyMark f := rfl
end

section
variable (s : State) (x : Sequencer)
@[simp] theorem setSeq_position : (s.setSeq x).position = s.position := rfl
@[simp] theorem setSeq_sender : (s.setSeq x).sender = s.sender := rfl
@[simp] theorem setSeq_atFirst : (s.setSeq x).atFirst = s.atFirst := rfl
@[simp] theorem setSeq_atLast : (s.setSeq x).atLast = s.atLast := rfl
@[simp] theorem setSeq_window : (s.setSeq x).window = s.window := rfl
@[simp] theorem setSeq_measuredAngle : (s.setSeq x).measuredAngle = s.measuredAngle := rfl
@[simp] theorem setSeq_roleOf (k : FrameKind) (b : BitVec 5) : (s.setSeq x).roleOf k b = s.roleOf k b := rfl
@[simp] theorem setSeq_lookup (t : Tag) : (s.setSeq x).lookup t = s.lookup t := rfl
@[simp] theorem setSeq_stickyMark (f : StickyFlag) : (s.setSeq x).stickyMark f = s.stickyMark f := rfl
@[simp] theorem setSeq_headInWindow : (s.setSeq x).headInWindow = s.headInWindow := rfl
@[simp] theorem setSeq_addressed (b : Byte) : (s.setSeq x).addressed b = s.addressed b := rfl
@[simp] theorem setSeq_wire : (s.setSeq x).wire = s.wire := rfl
@[simp] theorem setSeq_sending : (s.setSeq x).sending = s.sending := rfl
@[simp] theorem setSeq_bitsSent : (s.setSeq x).bitsSent = s.bitsSent := rfl
@[simp] theorem setSeq_bitsTaken : (s.setSeq x).bitsTaken = s.bitsTaken := rfl
@[simp] theorem setSeq_takenBits : (s.setSeq x).takenBits = s.takenBits := rfl
@[simp] theorem setSeq_lengthTaken : (s.setSeq x).lengthTaken = s.lengthTaken := rfl
@[simp] theorem setSeq_recessiveBits : (s.setSeq x).recessiveBits = s.recessiveBits := rfl
@[simp] theorem setSeq_recessiveRun : (s.setSeq x).recessiveRun = s.recessiveRun := rfl
@[simp] theorem setSeq_joinBits : (s.setSeq x).joinBits = s.joinBits := rfl
@[simp] theorem setSeq_spanBits : (s.setSeq x).spanBits = s.spanBits := rfl
end

section
variable (s : State) (x : Tracking)
@[simp] theorem setTrk_position : (s.setTrk x).position = s.position := rfl
@[simp] theorem setTrk_sender : (s.setTrk x).sender = s.sender := rfl
@[simp] theorem setTrk_atFirst : (s.setTrk x).atFirst = s.atFirst := rfl
@[simp] theorem setTrk_atLast : (s.setTrk x).atLast = s.atLast := rfl
@[simp] theorem setTrk_window : (s.setTrk x).window = s.window := rfl
@[simp] theorem setTrk_biteTag : (s.setTrk x).biteTag = s.biteTag := rfl
@[simp] theorem setTrk_measuredAngle : (s.setTrk x).measuredAngle = s.measuredAngle := rfl
@[simp] theorem setTrk_roleOf (k : FrameKind) (b : BitVec 5) : (s.setTrk x).roleOf k b = s.roleOf k b := rfl
@[simp] theorem setTrk_lookup (t : Tag) : (s.setTrk x).lookup t = s.lookup t := rfl
@[simp] theorem setTrk_biteSchedule : (s.setTrk x).biteSchedule = s.biteSchedule := rfl
@[simp] theorem setTrk_thetaRef : (s.setTrk x).thetaRef = s.thetaRef := rfl
@[simp] theorem setTrk_stickyMark (f : StickyFlag) : (s.setTrk x).stickyMark f = s.stickyMark f := rfl
@[simp] theorem setTrk_addressed (b : Byte) : (s.setTrk x).addressed b = s.addressed b := rfl
@[simp] theorem setTrk_wire : (s.setTrk x).wire = s.wire := rfl
@[simp] theorem setTrk_sending : (s.setTrk x).sending = s.sending := rfl
@[simp] theorem setTrk_bitsSent : (s.setTrk x).bitsSent = s.bitsSent := rfl
@[simp] theorem setTrk_bitsTaken : (s.setTrk x).bitsTaken = s.bitsTaken := rfl
@[simp] theorem setTrk_takenBits : (s.setTrk x).takenBits = s.takenBits := rfl
@[simp] theorem setTrk_lengthTaken : (s.setTrk x).lengthTaken = s.lengthTaken := rfl
@[simp] theorem setTrk_recessiveBits : (s.setTrk x).recessiveBits = s.recessiveBits := rfl
@[simp] theorem setTrk_recessiveRun : (s.setTrk x).recessiveRun = s.recessiveRun := rfl
@[simp] theorem setTrk_joinBits : (s.setTrk x).joinBits = s.joinBits := rfl
@[simp] theorem setTrk_spanBits : (s.setTrk x).spanBits = s.spanBits := rfl
end

section
variable (s : State) (x : Looper)
@[simp] theorem setLp_position : (s.setLp x).position = s.position := rfl
@[simp] theorem setLp_sender : (s.setLp x).sender = s.sender := rfl
@[simp] theorem setLp_atFirst : (s.setLp x).atFirst = s.atFirst := rfl
@[simp] theorem setLp_atLast : (s.setLp x).atLast = s.atLast := rfl
@[simp] theorem setLp_window : (s.setLp x).window = s.window := rfl
@[simp] theorem setLp_biteTag : (s.setLp x).biteTag = s.biteTag := rfl
@[simp] theorem setLp_measuredAngle : (s.setLp x).measuredAngle = s.measuredAngle := rfl
@[simp] theorem setLp_roleOf (k : FrameKind) (b : BitVec 5) : (s.setLp x).roleOf k b = s.roleOf k b := rfl
@[simp] theorem setLp_lookup (t : Tag) : (s.setLp x).lookup t = s.lookup t := rfl
@[simp] theorem setLp_biteSchedule : (s.setLp x).biteSchedule = s.biteSchedule := rfl
@[simp] theorem setLp_thetaRef : (s.setLp x).thetaRef = s.thetaRef := rfl
@[simp] theorem setLp_stickyMark (f : StickyFlag) : (s.setLp x).stickyMark f = s.stickyMark f := rfl
@[simp] theorem setLp_headInWindow : (s.setLp x).headInWindow = s.headInWindow := rfl
@[simp] theorem setLp_addressed (b : Byte) : (s.setLp x).addressed b = s.addressed b := rfl
@[simp] theorem setLp_wire : (s.setLp x).wire = s.wire := rfl
@[simp] theorem setLp_sending : (s.setLp x).sending = s.sending := rfl
@[simp] theorem setLp_bitsSent : (s.setLp x).bitsSent = s.bitsSent := rfl
@[simp] theorem setLp_bitsTaken : (s.setLp x).bitsTaken = s.bitsTaken := rfl
@[simp] theorem setLp_takenBits : (s.setLp x).takenBits = s.takenBits := rfl
@[simp] theorem setLp_lengthTaken : (s.setLp x).lengthTaken = s.lengthTaken := rfl
@[simp] theorem setLp_recessiveBits : (s.setLp x).recessiveBits = s.recessiveBits := rfl
@[simp] theorem setLp_recessiveRun : (s.setLp x).recessiveRun = s.recessiveRun := rfl
@[simp] theorem setLp_joinBits : (s.setLp x).joinBits = s.joinBits := rfl
@[simp] theorem setLp_spanBits : (s.setLp x).spanBits = s.spanBits := rfl
end

section
variable (s : State) (x : Cascade)
@[simp] theorem setCas_position : (s.setCas x).position = s.position := rfl
@[simp] theorem setCas_sender : (s.setCas x).sender = s.sender := rfl
@[simp] theorem setCas_atFirst : (s.setCas x).atFirst = s.atFirst := rfl
@[simp] theorem setCas_atLast : (s.setCas x).atLast = s.atLast := rfl
@[simp] theorem setCas_window : (s.setCas x).window = s.window := rfl
@[simp] theorem setCas_biteTag : (s.setCas x).biteTag = s.biteTag := rfl
@[simp] theorem setCas_measuredAngle : (s.setCas x).measuredAngle = s.measuredAngle := rfl
@[simp] theorem setCas_roleOf (k : FrameKind) (b : BitVec 5) : (s.setCas x).roleOf k b = s.roleOf k b := rfl
@[simp] theorem setCas_lookup (t : Tag) : (s.setCas x).lookup t = s.lookup t := rfl
@[simp] theorem setCas_biteSchedule : (s.setCas x).biteSchedule = s.biteSchedule := rfl
@[simp] theorem setCas_thetaRef : (s.setCas x).thetaRef = s.thetaRef := rfl
@[simp] theorem setCas_stickyMark (f : StickyFlag) : (s.setCas x).stickyMark f = s.stickyMark f := rfl
@[simp] theorem setCas_headInWindow : (s.setCas x).headInWindow = s.headInWindow := rfl
@[simp] theorem setCas_addressed (b : Byte) : (s.setCas x).addressed b = s.addressed b := rfl
@[simp] theorem setCas_wire : (s.setCas x).wire = s.wire := rfl
@[simp] theorem setCas_sending : (s.setCas x).sending = s.sending := rfl
@[simp] theorem setCas_bitsSent : (s.setCas x).bitsSent = s.bitsSent := rfl
@[simp] theorem setCas_bitsTaken : (s.setCas x).bitsTaken = s.bitsTaken := rfl
@[simp] theorem setCas_takenBits : (s.setCas x).takenBits = s.takenBits := rfl
@[simp] theorem setCas_lengthTaken : (s.setCas x).lengthTaken = s.lengthTaken := rfl
@[simp] theorem setCas_recessiveBits : (s.setCas x).recessiveBits = s.recessiveBits := rfl
@[simp] theorem setCas_recessiveRun : (s.setCas x).recessiveRun = s.recessiveRun := rfl
@[simp] theorem setCas_joinBits : (s.setCas x).joinBits = s.joinBits := rfl
@[simp] theorem setCas_spanBits : (s.setCas x).spanBits = s.spanBits := rfl
end

section
variable (s : State) (x : Store)
@[simp] theorem setStore_position : (s.setStore x).position = s.position := rfl
@[simp] theorem setStore_sender : (s.setStore x).sender = s.sender := rfl
@[simp] theorem setStore_atFirst : (s.setStore x).atFirst = s.atFirst := rfl
@[simp] theorem setStore_atLast : (s.setStore x).atLast = s.atLast := rfl
@[simp] theorem setStore_window : (s.setStore x).window = s.window := rfl
@[simp] theorem setStore_biteTag : (s.setStore x).biteTag = s.biteTag := rfl
@[simp] theorem setStore_measuredAngle : (s.setStore x).measuredAngle = s.measuredAngle := rfl
@[simp] theorem setStore_roleOf (k : FrameKind) (b : BitVec 5) : (s.setStore x).roleOf k b = s.roleOf k b := rfl
@[simp] theorem setStore_stickyMark (f : StickyFlag) : (s.setStore x).stickyMark f = s.stickyMark f := rfl
@[simp] theorem setStore_headInWindow : (s.setStore x).headInWindow = s.headInWindow := rfl
@[simp] theorem setStore_addressed (b : Byte) : (s.setStore x).addressed b = s.addressed b := rfl
@[simp] theorem setStore_wire : (s.setStore x).wire = s.wire := rfl
@[simp] theorem setStore_sending : (s.setStore x).sending = s.sending := rfl
@[simp] theorem setStore_bitsSent : (s.setStore x).bitsSent = s.bitsSent := rfl
@[simp] theorem setStore_bitsTaken : (s.setStore x).bitsTaken = s.bitsTaken := rfl
@[simp] theorem setStore_takenBits : (s.setStore x).takenBits = s.takenBits := rfl
@[simp] theorem setStore_lengthTaken : (s.setStore x).lengthTaken = s.lengthTaken := rfl
@[simp] theorem setStore_recessiveBits : (s.setStore x).recessiveBits = s.recessiveBits := rfl
@[simp] theorem setStore_recessiveRun : (s.setStore x).recessiveRun = s.recessiveRun := rfl
@[simp] theorem setStore_joinBits : (s.setStore x).joinBits = s.joinBits := rfl
@[simp] theorem setStore_spanBits : (s.setStore x).spanBits = s.spanBits := rfl
end

section
variable (s : State) (x : Sensing)
@[simp] theorem setSens_position : (s.setSens x).position = s.position := rfl
@[simp] theorem setSens_sender : (s.setSens x).sender = s.sender := rfl
@[simp] theorem setSens_atFirst : (s.setSens x).atFirst = s.atFirst := rfl
@[simp] theorem setSens_atLast : (s.setSens x).atLast = s.atLast := rfl
@[simp] theorem setSens_window : (s.setSens x).window = s.window := rfl
@[simp] theorem setSens_biteTag : (s.setSens x).biteTag = s.biteTag := rfl
@[simp] theorem setSens_roleOf (k : FrameKind) (b : BitVec 5) : (s.setSens x).roleOf k b = s.roleOf k b := rfl
@[simp] theorem setSens_lookup (t : Tag) : (s.setSens x).lookup t = s.lookup t := rfl
@[simp] theorem setSens_biteSchedule : (s.setSens x).biteSchedule = s.biteSchedule := rfl
@[simp] theorem setSens_thetaRef : (s.setSens x).thetaRef = s.thetaRef := rfl
@[simp] theorem setSens_stickyMark (f : StickyFlag) : (s.setSens x).stickyMark f = s.stickyMark f := rfl
@[simp] theorem setSens_headInWindow : (s.setSens x).headInWindow = s.headInWindow := rfl
@[simp] theorem setSens_addressed (b : Byte) : (s.setSens x).addressed b = s.addressed b := rfl
@[simp] theorem setSens_wire : (s.setSens x).wire = s.wire := rfl
@[simp] theorem setSens_sending : (s.setSens x).sending = s.sending := rfl
@[simp] theorem setSens_bitsSent : (s.setSens x).bitsSent = s.bitsSent := rfl
@[simp] theorem setSens_bitsTaken : (s.setSens x).bitsTaken = s.bitsTaken := rfl
@[simp] theorem setSens_takenBits : (s.setSens x).takenBits = s.takenBits := rfl
@[simp] theorem setSens_lengthTaken : (s.setSens x).lengthTaken = s.lengthTaken := rfl
@[simp] theorem setSens_recessiveBits : (s.setSens x).recessiveBits = s.recessiveBits := rfl
@[simp] theorem setSens_recessiveRun : (s.setSens x).recessiveRun = s.recessiveRun := rfl
@[simp] theorem setSens_joinBits : (s.setSens x).joinBits = s.joinBits := rfl
@[simp] theorem setSens_spanBits : (s.setSens x).spanBits = s.spanBits := rfl
end

section
variable (s : State) (x : HoldMonitor)
@[simp] theorem setHold_position : (s.setHold x).position = s.position := rfl
@[simp] theorem setHold_sender : (s.setHold x).sender = s.sender := rfl
@[simp] theorem setHold_atFirst : (s.setHold x).atFirst = s.atFirst := rfl
@[simp] theorem setHold_atLast : (s.setHold x).atLast = s.atLast := rfl
@[simp] theorem setHold_window : (s.setHold x).window = s.window := rfl
@[simp] theorem setHold_biteTag : (s.setHold x).biteTag = s.biteTag := rfl
@[simp] theorem setHold_measuredAngle : (s.setHold x).measuredAngle = s.measuredAngle := rfl
@[simp] theorem setHold_roleOf (k : FrameKind) (b : BitVec 5) : (s.setHold x).roleOf k b = s.roleOf k b := rfl
@[simp] theorem setHold_lookup (t : Tag) : (s.setHold x).lookup t = s.lookup t := rfl
@[simp] theorem setHold_biteSchedule : (s.setHold x).biteSchedule = s.biteSchedule := rfl
@[simp] theorem setHold_thetaRef : (s.setHold x).thetaRef = s.thetaRef := rfl
@[simp] theorem setHold_stickyMark (f : StickyFlag) : (s.setHold x).stickyMark f = s.stickyMark f := rfl
@[simp] theorem setHold_headInWindow : (s.setHold x).headInWindow = s.headInWindow := rfl
@[simp] theorem setHold_addressed (b : Byte) : (s.setHold x).addressed b = s.addressed b := rfl
@[simp] theorem setHold_wire : (s.setHold x).wire = s.wire := rfl
@[simp] theorem setHold_sending : (s.setHold x).sending = s.sending := rfl
@[simp] theorem setHold_bitsSent : (s.setHold x).bitsSent = s.bitsSent := rfl
@[simp] theorem setHold_bitsTaken : (s.setHold x).bitsTaken = s.bitsTaken := rfl
@[simp] theorem setHold_takenBits : (s.setHold x).takenBits = s.takenBits := rfl
@[simp] theorem setHold_lengthTaken : (s.setHold x).lengthTaken = s.lengthTaken := rfl
@[simp] theorem setHold_recessiveBits : (s.setHold x).recessiveBits = s.recessiveBits := rfl
@[simp] theorem setHold_recessiveRun : (s.setHold x).recessiveRun = s.recessiveRun := rfl
@[simp] theorem setHold_joinBits : (s.setHold x).joinBits = s.joinBits := rfl
@[simp] theorem setHold_spanBits : (s.setHold x).spanBits = s.spanBits := rfl
end

section
variable (s : State) (x : Link)
@[simp] theorem setLink_position : (s.setLink x).position = s.position := rfl
@[simp] theorem setLink_sender : (s.setLink x).sender = s.sender := rfl
@[simp] theorem setLink_atFirst : (s.setLink x).atFirst = s.atFirst := rfl
@[simp] theorem setLink_atLast : (s.setLink x).atLast = s.atLast := rfl
@[simp] theorem setLink_window : (s.setLink x).window = s.window := rfl
@[simp] theorem setLink_biteTag : (s.setLink x).biteTag = s.biteTag := rfl
@[simp] theorem setLink_measuredAngle : (s.setLink x).measuredAngle = s.measuredAngle := rfl
@[simp] theorem setLink_roleOf (k : FrameKind) (b : BitVec 5) : (s.setLink x).roleOf k b = s.roleOf k b := rfl
@[simp] theorem setLink_lookup (t : Tag) : (s.setLink x).lookup t = s.lookup t := rfl
@[simp] theorem setLink_biteSchedule : (s.setLink x).biteSchedule = s.biteSchedule := rfl
@[simp] theorem setLink_thetaRef : (s.setLink x).thetaRef = s.thetaRef := rfl
@[simp] theorem setLink_stickyMark (f : StickyFlag) : (s.setLink x).stickyMark f = s.stickyMark f := rfl
@[simp] theorem setLink_headInWindow : (s.setLink x).headInWindow = s.headInWindow := rfl
@[simp] theorem setLink_addressed (b : Byte) : (s.setLink x).addressed b = s.addressed b := rfl
end

section
variable (s : State) (x : TransmitQueue)
@[simp] theorem setTxq_position : (s.setTxq x).position = s.position := rfl
@[simp] theorem setTxq_sender : (s.setTxq x).sender = s.sender := rfl
@[simp] theorem setTxq_atFirst : (s.setTxq x).atFirst = s.atFirst := rfl
@[simp] theorem setTxq_atLast : (s.setTxq x).atLast = s.atLast := rfl
@[simp] theorem setTxq_window : (s.setTxq x).window = s.window := rfl
@[simp] theorem setTxq_biteTag : (s.setTxq x).biteTag = s.biteTag := rfl
@[simp] theorem setTxq_measuredAngle : (s.setTxq x).measuredAngle = s.measuredAngle := rfl
@[simp] theorem setTxq_roleOf (k : FrameKind) (b : BitVec 5) : (s.setTxq x).roleOf k b = s.roleOf k b := rfl
@[simp] theorem setTxq_lookup (t : Tag) : (s.setTxq x).lookup t = s.lookup t := rfl
@[simp] theorem setTxq_biteSchedule : (s.setTxq x).biteSchedule = s.biteSchedule := rfl
@[simp] theorem setTxq_thetaRef : (s.setTxq x).thetaRef = s.thetaRef := rfl
@[simp] theorem setTxq_stickyMark (f : StickyFlag) : (s.setTxq x).stickyMark f = s.stickyMark f := rfl
@[simp] theorem setTxq_headInWindow : (s.setTxq x).headInWindow = s.headInWindow := rfl
@[simp] theorem setTxq_addressed (b : Byte) : (s.setTxq x).addressed b = s.addressed b := rfl
@[simp] theorem setTxq_bitsTaken : (s.setTxq x).bitsTaken = s.bitsTaken := rfl
@[simp] theorem setTxq_takenBits : (s.setTxq x).takenBits = s.takenBits := rfl
@[simp] theorem setTxq_lengthTaken : (s.setTxq x).lengthTaken = s.lengthTaken := rfl
@[simp] theorem setTxq_recessiveBits : (s.setTxq x).recessiveBits = s.recessiveBits := rfl
@[simp] theorem setTxq_recessiveRun : (s.setTxq x).recessiveRun = s.recessiveRun := rfl
@[simp] theorem setTxq_joinBits : (s.setTxq x).joinBits = s.joinBits := rfl
@[simp] theorem setTxq_spanBits : (s.setTxq x).spanBits = s.spanBits := rfl
end

section
variable (s : State) (x : ErrorConfinement)
@[simp] theorem setEc_position : (s.setEc x).position = s.position := rfl
@[simp] theorem setEc_sender : (s.setEc x).sender = s.sender := rfl
@[simp] theorem setEc_atFirst : (s.setEc x).atFirst = s.atFirst := rfl
@[simp] theorem setEc_atLast : (s.setEc x).atLast = s.atLast := rfl
@[simp] theorem setEc_window : (s.setEc x).window = s.window := rfl
@[simp] theorem setEc_biteTag : (s.setEc x).biteTag = s.biteTag := rfl
@[simp] theorem setEc_measuredAngle : (s.setEc x).measuredAngle = s.measuredAngle := rfl
@[simp] theorem setEc_roleOf (k : FrameKind) (b : BitVec 5) : (s.setEc x).roleOf k b = s.roleOf k b := rfl
@[simp] theorem setEc_lookup (t : Tag) : (s.setEc x).lookup t = s.lookup t := rfl
@[simp] theorem setEc_biteSchedule : (s.setEc x).biteSchedule = s.biteSchedule := rfl
@[simp] theorem setEc_thetaRef : (s.setEc x).thetaRef = s.thetaRef := rfl
@[simp] theorem setEc_stickyMark (f : StickyFlag) : (s.setEc x).stickyMark f = s.stickyMark f := rfl
@[simp] theorem setEc_headInWindow : (s.setEc x).headInWindow = s.headInWindow := rfl
@[simp] theorem setEc_addressed (b : Byte) : (s.setEc x).addressed b = s.addressed b := rfl
@[simp] theorem setEc_wire : (s.setEc x).wire = s.wire := rfl
@[simp] theorem setEc_sending : (s.setEc x).sending = s.sending := rfl
@[simp] theorem setEc_bitsSent : (s.setEc x).bitsSent = s.bitsSent := rfl
@[simp] theorem setEc_bitsTaken : (s.setEc x).bitsTaken = s.bitsTaken := rfl
@[simp] theorem setEc_takenBits : (s.setEc x).takenBits = s.takenBits := rfl
@[simp] theorem setEc_lengthTaken : (s.setEc x).lengthTaken = s.lengthTaken := rfl
@[simp] theorem setEc_recessiveBits : (s.setEc x).recessiveBits = s.recessiveBits := rfl
@[simp] theorem setEc_recessiveRun : (s.setEc x).recessiveRun = s.recessiveRun := rfl
end

section
variable (s : State) (x : Reporter)
@[simp] theorem setRep_position : (s.setRep x).position = s.position := rfl
@[simp] theorem setRep_sender : (s.setRep x).sender = s.sender := rfl
@[simp] theorem setRep_atFirst : (s.setRep x).atFirst = s.atFirst := rfl
@[simp] theorem setRep_atLast : (s.setRep x).atLast = s.atLast := rfl
@[simp] theorem setRep_window : (s.setRep x).window = s.window := rfl
@[simp] theorem setRep_biteTag : (s.setRep x).biteTag = s.biteTag := rfl
@[simp] theorem setRep_measuredAngle : (s.setRep x).measuredAngle = s.measuredAngle := rfl
@[simp] theorem setRep_roleOf (k : FrameKind) (b : BitVec 5) : (s.setRep x).roleOf k b = s.roleOf k b := rfl
@[simp] theorem setRep_lookup (t : Tag) : (s.setRep x).lookup t = s.lookup t := rfl
@[simp] theorem setRep_biteSchedule : (s.setRep x).biteSchedule = s.biteSchedule := rfl
@[simp] theorem setRep_thetaRef : (s.setRep x).thetaRef = s.thetaRef := rfl
@[simp] theorem setRep_headInWindow : (s.setRep x).headInWindow = s.headInWindow := rfl
@[simp] theorem setRep_addressed (b : Byte) : (s.setRep x).addressed b = s.addressed b := rfl
@[simp] theorem setRep_wire : (s.setRep x).wire = s.wire := rfl
@[simp] theorem setRep_sending : (s.setRep x).sending = s.sending := rfl
@[simp] theorem setRep_bitsSent : (s.setRep x).bitsSent = s.bitsSent := rfl
@[simp] theorem setRep_bitsTaken : (s.setRep x).bitsTaken = s.bitsTaken := rfl
@[simp] theorem setRep_takenBits : (s.setRep x).takenBits = s.takenBits := rfl
@[simp] theorem setRep_lengthTaken : (s.setRep x).lengthTaken = s.lengthTaken := rfl
@[simp] theorem setRep_recessiveBits : (s.setRep x).recessiveBits = s.recessiveBits := rfl
@[simp] theorem setRep_recessiveRun : (s.setRep x).recessiveRun = s.recessiveRun := rfl
@[simp] theorem setRep_joinBits : (s.setRep x).joinBits = s.joinBits := rfl
@[simp] theorem setRep_spanBits : (s.setRep x).spanBits = s.spanBits := rfl
end

/-! ### Frames of the shared operations -/

@[simp] theorem setSticky_frame (f : StickyFlag) (s : State) :
    (setSticky f s).pending = s.pending ∧
    (setSticky f s).clock = s.clock ∧
    (setSticky f s).draws = s.draws ∧
    (setSticky f s).ldr = s.ldr ∧
    (setSticky f s).seq = s.seq ∧
    (setSticky f s).trk = s.trk ∧
    (setSticky f s).lp = s.lp ∧
    (setSticky f s).cas = s.cas ∧
    (setSticky f s).store = s.store ∧
    (setSticky f s).sens = s.sens ∧
    (setSticky f s).hold = s.hold ∧
    (setSticky f s).link = s.link ∧
    (setSticky f s).txq = s.txq ∧
    (setSticky f s).ec = s.ec := by
  simp [setSticky]

@[simp] theorem setStickyIf_frame (c : Bool) (f : StickyFlag) (s : State) :
    (setStickyIf c f s).pending = s.pending ∧
    (setStickyIf c f s).clock = s.clock ∧
    (setStickyIf c f s).draws = s.draws ∧
    (setStickyIf c f s).ldr = s.ldr ∧
    (setStickyIf c f s).seq = s.seq ∧
    (setStickyIf c f s).trk = s.trk ∧
    (setStickyIf c f s).lp = s.lp ∧
    (setStickyIf c f s).cas = s.cas ∧
    (setStickyIf c f s).store = s.store ∧
    (setStickyIf c f s).sens = s.sens ∧
    (setStickyIf c f s).hold = s.hold ∧
    (setStickyIf c f s).link = s.link ∧
    (setStickyIf c f s).txq = s.txq ∧
    (setStickyIf c f s).ec = s.ec := by
  cases c <;> simp [setStickyIf]

@[simp] theorem countDropped_frame (s : State) :
    (countDropped s).pending = s.pending ∧
    (countDropped s).clock = s.clock ∧
    (countDropped s).draws = s.draws ∧
    (countDropped s).ldr = s.ldr ∧
    (countDropped s).seq = s.seq ∧
    (countDropped s).trk = s.trk ∧
    (countDropped s).lp = s.lp ∧
    (countDropped s).cas = s.cas ∧
    (countDropped s).store = s.store ∧
    (countDropped s).sens = s.sens ∧
    (countDropped s).hold = s.hold ∧
    (countDropped s).link = s.link ∧
    (countDropped s).txq = s.txq ∧
    (countDropped s).rep = s.rep := by
  simp [countDropped]

@[simp] theorem countStray_frame (s : State) :
    (countStray s).pending = s.pending ∧
    (countStray s).clock = s.clock ∧
    (countStray s).draws = s.draws ∧
    (countStray s).ldr = s.ldr ∧
    (countStray s).seq = s.seq ∧
    (countStray s).trk = s.trk ∧
    (countStray s).lp = s.lp ∧
    (countStray s).cas = s.cas ∧
    (countStray s).store = s.store ∧
    (countStray s).sens = s.sens ∧
    (countStray s).hold = s.hold ∧
    (countStray s).link = s.link ∧
    (countStray s).txq = s.txq ∧
    (countStray s).rep = s.rep := by
  simp [countStray]

@[simp] theorem takeSlot_frame (i : Fin 4) (f : TxFrame) (s : State) :
    (takeSlot i f s).pending = s.pending ∧
    (takeSlot i f s).clock = s.clock ∧
    (takeSlot i f s).draws = s.draws ∧
    (takeSlot i f s).ldr = s.ldr ∧
    (takeSlot i f s).seq = s.seq ∧
    (takeSlot i f s).trk = s.trk ∧
    (takeSlot i f s).lp = s.lp ∧
    (takeSlot i f s).cas = s.cas ∧
    (takeSlot i f s).store = s.store ∧
    (takeSlot i f s).sens = s.sens ∧
    (takeSlot i f s).hold = s.hold ∧
    (takeSlot i f s).link = s.link ∧
    (takeSlot i f s).ec = s.ec ∧
    (takeSlot i f s).rep = s.rep := by
  simp [takeSlot]

@[simp] theorem offerToFull_frame (f : TxFrame) (s : State) :
    (offerToFull f s).pending = s.pending ∧
    (offerToFull f s).clock = s.clock ∧
    (offerToFull f s).draws = s.draws ∧
    (offerToFull f s).ldr = s.ldr ∧
    (offerToFull f s).seq = s.seq ∧
    (offerToFull f s).trk = s.trk ∧
    (offerToFull f s).lp = s.lp ∧
    (offerToFull f s).cas = s.cas ∧
    (offerToFull f s).store = s.store ∧
    (offerToFull f s).sens = s.sens ∧
    (offerToFull f s).hold = s.hold ∧
    (offerToFull f s).link = s.link ∧
    (offerToFull f s).rep = s.rep := by
  unfold offerToFull; split <;> (try split) <;> simp

@[simp] theorem offer_frame (f : TxFrame) (s : State) :
    (offer f s).pending = s.pending ∧
    (offer f s).clock = s.clock ∧
    (offer f s).draws = s.draws ∧
    (offer f s).ldr = s.ldr ∧
    (offer f s).seq = s.seq ∧
    (offer f s).trk = s.trk ∧
    (offer f s).lp = s.lp ∧
    (offer f s).cas = s.cas ∧
    (offer f s).store = s.store ∧
    (offer f s).sens = s.sens ∧
    (offer f s).hold = s.hold ∧
    (offer f s).link = s.link ∧
    (offer f s).rep = s.rep := by
  unfold offer; repeat' split
  all_goals simp

@[simp] theorem raiseAlarm_frame (k : AlarmKind) (tag : Tag) (d : BitVec 16) (s : State) :
    (raiseAlarm k tag d s).pending = s.pending ∧
    (raiseAlarm k tag d s).clock = s.clock ∧
    (raiseAlarm k tag d s).draws = s.draws ∧
    (raiseAlarm k tag d s).ldr = s.ldr ∧
    (raiseAlarm k tag d s).seq = s.seq ∧
    (raiseAlarm k tag d s).trk = s.trk ∧
    (raiseAlarm k tag d s).lp = s.lp ∧
    (raiseAlarm k tag d s).cas = s.cas ∧
    (raiseAlarm k tag d s).store = s.store ∧
    (raiseAlarm k tag d s).sens = s.sens ∧
    (raiseAlarm k tag d s).hold = s.hold ∧
    (raiseAlarm k tag d s).link = s.link := by
  simp [raiseAlarm]

@[simp] theorem endReception_frame (b : Bool) (n : Nat) (s : State) :
    (endReception b n s).pending = s.pending ∧
    (endReception b n s).clock = s.clock ∧
    (endReception b n s).draws = s.draws ∧
    (endReception b n s).ldr = s.ldr ∧
    (endReception b n s).seq = s.seq ∧
    (endReception b n s).trk = s.trk ∧
    (endReception b n s).lp = s.lp ∧
    (endReception b n s).cas = s.cas ∧
    (endReception b n s).store = s.store ∧
    (endReception b n s).sens = s.sens ∧
    (endReception b n s).hold = s.hold ∧
    (endReception b n s).txq = s.txq ∧
    (endReception b n s).ec = s.ec ∧
    (endReception b n s).rep = s.rep := by
  simp [endReception]

@[simp] theorem countRead_frame (w : Bool) (n : Nat) (l : List Bool) (s : State) :
    (countRead w n l s).pending = s.pending ∧
    (countRead w n l s).clock = s.clock ∧
    (countRead w n l s).draws = s.draws ∧
    (countRead w n l s).ldr = s.ldr ∧
    (countRead w n l s).seq = s.seq ∧
    (countRead w n l s).trk = s.trk ∧
    (countRead w n l s).lp = s.lp ∧
    (countRead w n l s).cas = s.cas ∧
    (countRead w n l s).store = s.store ∧
    (countRead w n l s).sens = s.sens ∧
    (countRead w n l s).hold = s.hold ∧
    (countRead w n l s).txq = s.txq ∧
    (countRead w n l s).ec = s.ec ∧
    (countRead w n l s).rep = s.rep := by
  simp [countRead]

@[simp] theorem endInError_frame (b : Bool) (r : ReadFrame) (s : State) :
    (endInError b r s).pending = s.pending ∧
    (endInError b r s).clock = s.clock ∧
    (endInError b r s).draws = s.draws ∧
    (endInError b r s).ldr = s.ldr ∧
    (endInError b r s).seq = s.seq ∧
    (endInError b r s).trk = s.trk ∧
    (endInError b r s).lp = s.lp ∧
    (endInError b r s).cas = s.cas ∧
    (endInError b r s).store = s.store ∧
    (endInError b r s).sens = s.sens ∧
    (endInError b r s).hold = s.hold ∧
    (endInError b r s).txq = s.txq ∧
    (endInError b r s).ec = s.ec ∧
    (endInError b r s).rep = s.rep := by
  simp [endInError]

@[simp] theorem receiveClean_frame (m : Bool) (s : State) :
    (receiveClean m s).pending = s.pending ∧
    (receiveClean m s).clock = s.clock ∧
    (receiveClean m s).draws = s.draws ∧
    (receiveClean m s).ldr = s.ldr ∧
    (receiveClean m s).seq = s.seq ∧
    (receiveClean m s).trk = s.trk ∧
    (receiveClean m s).lp = s.lp ∧
    (receiveClean m s).cas = s.cas ∧
    (receiveClean m s).store = s.store ∧
    (receiveClean m s).sens = s.sens ∧
    (receiveClean m s).hold = s.hold ∧
    (receiveClean m s).txq = s.txq ∧
    (receiveClean m s).rep = s.rep := by
  simp [receiveClean]

@[simp] theorem inReception_frame (r : Reception) (s : State) :
    (inReception r s).pending = s.pending ∧
    (inReception r s).clock = s.clock ∧
    (inReception r s).draws = s.draws ∧
    (inReception r s).ldr = s.ldr ∧
    (inReception r s).seq = s.seq ∧
    (inReception r s).trk = s.trk ∧
    (inReception r s).lp = s.lp ∧
    (inReception r s).cas = s.cas ∧
    (inReception r s).store = s.store ∧
    (inReception r s).sens = s.sens ∧
    (inReception r s).hold = s.hold ∧
    (inReception r s).txq = s.txq ∧
    (inReception r s).ec = s.ec ∧
    (inReception r s).rep = s.rep := by
  simp [inReception]

@[simp] theorem holdError_frame (r : ReadFrame) (s : State) :
    (holdError r s).pending = s.pending ∧
    (holdError r s).clock = s.clock ∧
    (holdError r s).draws = s.draws ∧
    (holdError r s).ldr = s.ldr ∧
    (holdError r s).seq = s.seq ∧
    (holdError r s).trk = s.trk ∧
    (holdError r s).lp = s.lp ∧
    (holdError r s).cas = s.cas ∧
    (holdError r s).store = s.store ∧
    (holdError r s).sens = s.sens ∧
    (holdError r s).hold = s.hold ∧
    (holdError r s).txq = s.txq ∧
    (holdError r s).ec = s.ec ∧
    (holdError r s).rep = s.rep := by
  simp [holdError]

@[simp] theorem startReception_frame (n : Nat) (l : List Bool) (s : State) :
    (startReception n l s).pending = s.pending ∧
    (startReception n l s).clock = s.clock ∧
    (startReception n l s).draws = s.draws ∧
    (startReception n l s).ldr = s.ldr ∧
    (startReception n l s).seq = s.seq ∧
    (startReception n l s).trk = s.trk ∧
    (startReception n l s).lp = s.lp ∧
    (startReception n l s).cas = s.cas ∧
    (startReception n l s).store = s.store ∧
    (startReception n l s).sens = s.sens ∧
    (startReception n l s).hold = s.hold ∧
    (startReception n l s).txq = s.txq ∧
    (startReception n l s).rep = s.rep := by
  simp [startReception]

@[simp] theorem startContest_frame (s : State) :
    (startContest s).pending = s.pending ∧
    (startContest s).clock = s.clock ∧
    (startContest s).draws = s.draws ∧
    (startContest s).ldr = s.ldr ∧
    (startContest s).seq = s.seq ∧
    (startContest s).trk = s.trk ∧
    (startContest s).lp = s.lp ∧
    (startContest s).cas = s.cas ∧
    (startContest s).store = s.store ∧
    (startContest s).sens = s.sens ∧
    (startContest s).hold = s.hold ∧
    (startContest s).ec = s.ec ∧
    (startContest s).rep = s.rep := by
  unfold startContest; split <;> simp

@[simp] theorem settleLost_frame (i : Fin 4) (s : State) :
    (settleLost i s).pending = s.pending ∧
    (settleLost i s).clock = s.clock ∧
    (settleLost i s).draws = s.draws ∧
    (settleLost i s).ldr = s.ldr ∧
    (settleLost i s).seq = s.seq ∧
    (settleLost i s).trk = s.trk ∧
    (settleLost i s).lp = s.lp ∧
    (settleLost i s).cas = s.cas ∧
    (settleLost i s).store = s.store ∧
    (settleLost i s).sens = s.sens ∧
    (settleLost i s).hold = s.hold ∧
    (settleLost i s).link = s.link ∧
    (settleLost i s).ec = s.ec ∧
    (settleLost i s).rep = s.rep := by
  unfold settleLost; split <;> simp

@[simp] theorem settleFailed_frame (i : Fin 4) (s : State) :
    (settleFailed i s).pending = s.pending ∧
    (settleFailed i s).clock = s.clock ∧
    (settleFailed i s).draws = s.draws ∧
    (settleFailed i s).ldr = s.ldr ∧
    (settleFailed i s).seq = s.seq ∧
    (settleFailed i s).trk = s.trk ∧
    (settleFailed i s).lp = s.lp ∧
    (settleFailed i s).cas = s.cas ∧
    (settleFailed i s).store = s.store ∧
    (settleFailed i s).sens = s.sens ∧
    (settleFailed i s).hold = s.hold ∧
    (settleFailed i s).link = s.link ∧
    (settleFailed i s).rep = s.rep := by
  unfold settleFailed; repeat' split
  all_goals simp

/-- A fold of updates of the Status Reporter is one. -/
theorem foldl_rep (g : State → StickyFlag → State) (hg : ∀ s f, ∃ r, g s f = s.setRep r) (fs : List StickyFlag)
    (s : State) : ∃ r, fs.foldl g s = s.setRep r := by
  induction fs generalizing s with
  | nil => exact ⟨s.rep, rfl⟩
  | cons f fs ih =>
    obtain ⟨r, h⟩ := hg s f
    obtain ⟨r', h'⟩ := ih (g s f)
    exact ⟨r', by rw [List.foldl_cons, h', h, setRep_setRep]⟩

/-- Clearing changes the Status Reporter only. -/
theorem clearCarried_eq (d : Vector Byte 8) (n : Nat) (s : State) : ∃ r, clearCarried d n s = s.setRep r := by
  refine foldl_rep _ (fun s f => ?_) _ s
  split
  · split
    · exact ⟨_, rfl⟩
    · exact ⟨s.rep, rfl⟩
  · exact ⟨s.rep, rfl⟩

@[simp] theorem clearCarried_frame (d : Vector Byte 8) (n : Nat) (s : State) :
    (clearCarried d n s).pending = s.pending ∧
    (clearCarried d n s).clock = s.clock ∧
    (clearCarried d n s).draws = s.draws ∧
    (clearCarried d n s).ldr = s.ldr ∧
    (clearCarried d n s).seq = s.seq ∧
    (clearCarried d n s).trk = s.trk ∧
    (clearCarried d n s).lp = s.lp ∧
    (clearCarried d n s).cas = s.cas ∧
    (clearCarried d n s).store = s.store ∧
    (clearCarried d n s).sens = s.sens ∧
    (clearCarried d n s).hold = s.hold ∧
    (clearCarried d n s).link = s.link ∧
    (clearCarried d n s).txq = s.txq ∧
    (clearCarried d n s).ec = s.ec := by
  obtain ⟨r, h⟩ := clearCarried_eq d n s
  simp [h]

@[simp] theorem settleSucceeded_frame (i : Fin 4) (s : State) :
    (settleSucceeded i s).pending = s.pending ∧
    (settleSucceeded i s).clock = s.clock ∧
    (settleSucceeded i s).draws = s.draws ∧
    (settleSucceeded i s).ldr = s.ldr ∧
    (settleSucceeded i s).seq = s.seq ∧
    (settleSucceeded i s).trk = s.trk ∧
    (settleSucceeded i s).lp = s.lp ∧
    (settleSucceeded i s).cas = s.cas ∧
    (settleSucceeded i s).store = s.store ∧
    (settleSucceeded i s).sens = s.sens ∧
    (settleSucceeded i s).hold = s.hold ∧
    (settleSucceeded i s).link = s.link ∧
    (settleSucceeded i s).ec = s.ec := by
  unfold settleSucceeded; repeat' split
  all_goals simp

@[simp] theorem fireFlaw_frame (a : Attempt) (s : State) :
    (fireFlaw a s).pending = s.pending ∧
    (fireFlaw a s).clock = s.clock ∧
    (fireFlaw a s).draws = s.draws ∧
    (fireFlaw a s).ldr = s.ldr ∧
    (fireFlaw a s).seq = s.seq ∧
    (fireFlaw a s).trk = s.trk ∧
    (fireFlaw a s).lp = s.lp ∧
    (fireFlaw a s).cas = s.cas ∧
    (fireFlaw a s).store = s.store ∧
    (fireFlaw a s).sens = s.sens ∧
    (fireFlaw a s).hold = s.hold ∧
    (fireFlaw a s).txq = s.txq ∧
    (fireFlaw a s).ec = s.ec := by
  simp [fireFlaw]

@[simp] theorem catchUpFlaw_frame (s : State) :
    (catchUpFlaw s).pending = s.pending ∧
    (catchUpFlaw s).clock = s.clock ∧
    (catchUpFlaw s).draws = s.draws ∧
    (catchUpFlaw s).ldr = s.ldr ∧
    (catchUpFlaw s).seq = s.seq ∧
    (catchUpFlaw s).trk = s.trk ∧
    (catchUpFlaw s).lp = s.lp ∧
    (catchUpFlaw s).cas = s.cas ∧
    (catchUpFlaw s).store = s.store ∧
    (catchUpFlaw s).sens = s.sens ∧
    (catchUpFlaw s).hold = s.hold ∧
    (catchUpFlaw s).txq = s.txq ∧
    (catchUpFlaw s).ec = s.ec := by
  unfold catchUpFlaw; repeat' split
  all_goals simp

@[simp] theorem settleFlaw_frame (a : Attempt) (s : State) :
    (settleFlaw a s).pending = s.pending ∧
    (settleFlaw a s).clock = s.clock ∧
    (settleFlaw a s).draws = s.draws ∧
    (settleFlaw a s).ldr = s.ldr ∧
    (settleFlaw a s).seq = s.seq ∧
    (settleFlaw a s).trk = s.trk ∧
    (settleFlaw a s).lp = s.lp ∧
    (settleFlaw a s).cas = s.cas ∧
    (settleFlaw a s).store = s.store ∧
    (settleFlaw a s).sens = s.sens ∧
    (settleFlaw a s).hold = s.hold ∧
    (settleFlaw a s).txq = s.txq ∧
    (settleFlaw a s).ec = s.ec := by
  unfold settleFlaw; split <;> simp

@[simp] theorem endAttempt_frame (s : State) :
    (endAttempt s).pending = s.pending ∧
    (endAttempt s).clock = s.clock ∧
    (endAttempt s).draws = s.draws ∧
    (endAttempt s).ldr = s.ldr ∧
    (endAttempt s).seq = s.seq ∧
    (endAttempt s).trk = s.trk ∧
    (endAttempt s).lp = s.lp ∧
    (endAttempt s).cas = s.cas ∧
    (endAttempt s).store = s.store ∧
    (endAttempt s).sens = s.sens ∧
    (endAttempt s).hold = s.hold ∧
    (endAttempt s).txq = s.txq ∧
    (endAttempt s).ec = s.ec ∧
    (endAttempt s).rep = s.rep := by
  simp [endAttempt]

@[simp] theorem retire_frame (s : State) :
    (retire s).pending = s.pending ∧
    (retire s).clock = s.clock ∧
    (retire s).draws = s.draws ∧
    (retire s).ldr = s.ldr ∧
    (retire s).seq = s.seq ∧
    (retire s).trk = s.trk ∧
    (retire s).lp = s.lp ∧
    (retire s).cas = s.cas ∧
    (retire s).sens = s.sens ∧
    (retire s).hold = s.hold ∧
    (retire s).link = s.link ∧
    (retire s).txq = s.txq ∧
    (retire s).ec = s.ec ∧
    (retire s).rep = s.rep := by
  simp [retire]

@[simp] theorem appendRecord_frame (t : Tag) (s : State) :
    (appendRecord t s).pending = s.pending ∧
    (appendRecord t s).clock = s.clock ∧
    (appendRecord t s).draws = s.draws ∧
    (appendRecord t s).ldr = s.ldr ∧
    (appendRecord t s).seq = s.seq ∧
    (appendRecord t s).trk = s.trk ∧
    (appendRecord t s).lp = s.lp ∧
    (appendRecord t s).cas = s.cas ∧
    (appendRecord t s).sens = s.sens ∧
    (appendRecord t s).hold = s.hold ∧
    (appendRecord t s).link = s.link ∧
    (appendRecord t s).txq = s.txq ∧
    (appendRecord t s).ec = s.ec ∧
    (appendRecord t s).rep = s.rep := by
  simp [appendRecord]

@[simp] theorem replaceRecord_frame (t : Tag) (s : State) :
    (replaceRecord t s).pending = s.pending ∧
    (replaceRecord t s).clock = s.clock ∧
    (replaceRecord t s).draws = s.draws ∧
    (replaceRecord t s).ldr = s.ldr ∧
    (replaceRecord t s).seq = s.seq ∧
    (replaceRecord t s).trk = s.trk ∧
    (replaceRecord t s).lp = s.lp ∧
    (replaceRecord t s).cas = s.cas ∧
    (replaceRecord t s).sens = s.sens ∧
    (replaceRecord t s).hold = s.hold ∧
    (replaceRecord t s).link = s.link ∧
    (replaceRecord t s).txq = s.txq ∧
    (replaceRecord t s).ec = s.ec ∧
    (replaceRecord t s).rep = s.rep := by
  simp [replaceRecord]

@[simp] theorem close_frame (t : Tag) (s : State) :
    (close t s).pending = s.pending ∧
    (close t s).clock = s.clock ∧
    (close t s).draws = s.draws ∧
    (close t s).ldr = s.ldr ∧
    (close t s).seq = s.seq ∧
    (close t s).trk = s.trk ∧
    (close t s).lp = s.lp ∧
    (close t s).cas = s.cas ∧
    (close t s).sens = s.sens ∧
    (close t s).hold = s.hold ∧
    (close t s).link = s.link ∧
    (close t s).txq = s.txq ∧
    (close t s).ec = s.ec := by
  unfold close; split <;> simp

@[simp] theorem cancel_frame (t : Tag) (s : State) :
    (cancel t s).pending = s.pending ∧
    (cancel t s).clock = s.clock ∧
    (cancel t s).draws = s.draws ∧
    (cancel t s).ldr = s.ldr ∧
    (cancel t s).seq = s.seq ∧
    (cancel t s).trk = s.trk ∧
    (cancel t s).lp = s.lp ∧
    (cancel t s).cas = s.cas ∧
    (cancel t s).sens = s.sens ∧
    (cancel t s).hold = s.hold ∧
    (cancel t s).link = s.link ∧
    (cancel t s).txq = s.txq ∧
    (cancel t s).ec = s.ec := by
  unfold cancel; repeat' split
  all_goals simp

@[simp] theorem clearStaging_frame (s : State) :
    (clearStaging s).pending = s.pending ∧
    (clearStaging s).clock = s.clock ∧
    (clearStaging s).draws = s.draws ∧
    (clearStaging s).ldr = s.ldr ∧
    (clearStaging s).seq = s.seq ∧
    (clearStaging s).trk = s.trk ∧
    (clearStaging s).lp = s.lp ∧
    (clearStaging s).cas = s.cas ∧
    (clearStaging s).sens = s.sens ∧
    (clearStaging s).hold = s.hold ∧
    (clearStaging s).link = s.link ∧
    (clearStaging s).txq = s.txq ∧
    (clearStaging s).ec = s.ec ∧
    (clearStaging s).rep = s.rep := by
  simp [clearStaging]

@[simp] theorem takePair_frame (p : FieldPair) (s : State) :
    (takePair p s).pending = s.pending ∧
    (takePair p s).clock = s.clock ∧
    (takePair p s).draws = s.draws ∧
    (takePair p s).ldr = s.ldr ∧
    (takePair p s).seq = s.seq ∧
    (takePair p s).trk = s.trk ∧
    (takePair p s).lp = s.lp ∧
    (takePair p s).cas = s.cas ∧
    (takePair p s).sens = s.sens ∧
    (takePair p s).hold = s.hold ∧
    (takePair p s).link = s.link ∧
    (takePair p s).txq = s.txq ∧
    (takePair p s).ec = s.ec := by
  unfold takePair; dsimp only; split <;> simp

@[simp] theorem createMarker_frame (k : MarkerKind) (t : Tag) (m e : Nat) (s : State) :
    (createMarker k t m e s).pending = s.pending ∧
    (createMarker k t m e s).clock = s.clock ∧
    (createMarker k t m e s).draws = s.draws ∧
    (createMarker k t m e s).ldr = s.ldr ∧
    (createMarker k t m e s).seq = s.seq ∧
    (createMarker k t m e s).lp = s.lp ∧
    (createMarker k t m e s).cas = s.cas ∧
    (createMarker k t m e s).store = s.store ∧
    (createMarker k t m e s).sens = s.sens ∧
    (createMarker k t m e s).hold = s.hold ∧
    (createMarker k t m e s).link = s.link ∧
    (createMarker k t m e s).txq = s.txq ∧
    (createMarker k t m e s).ec = s.ec := by
  unfold createMarker; split <;> simp

@[simp] theorem trackNotice_frame (k : MarkerKind) (t : Tag) (a : BitVec 16) (s : State) :
    (trackNotice k t a s).pending = s.pending ∧
    (trackNotice k t a s).clock = s.clock ∧
    (trackNotice k t a s).draws = s.draws ∧
    (trackNotice k t a s).ldr = s.ldr ∧
    (trackNotice k t a s).seq = s.seq ∧
    (trackNotice k t a s).lp = s.lp ∧
    (trackNotice k t a s).cas = s.cas ∧
    (trackNotice k t a s).store = s.store ∧
    (trackNotice k t a s).sens = s.sens ∧
    (trackNotice k t a s).hold = s.hold ∧
    (trackNotice k t a s).link = s.link ∧
    (trackNotice k t a s).txq = s.txq ∧
    (trackNotice k t a s).ec = s.ec := by
  unfold trackNotice; split <;> simp

@[simp] theorem hotMetalEdge_frame (b : Bool) (s : State) :
    (hotMetalEdge b s).pending = s.pending ∧
    (hotMetalEdge b s).clock = s.clock ∧
    (hotMetalEdge b s).draws = s.draws ∧
    (hotMetalEdge b s).ldr = s.ldr ∧
    (hotMetalEdge b s).seq = s.seq ∧
    (hotMetalEdge b s).lp = s.lp ∧
    (hotMetalEdge b s).cas = s.cas ∧
    (hotMetalEdge b s).store = s.store ∧
    (hotMetalEdge b s).sens = s.sens ∧
    (hotMetalEdge b s).hold = s.hold ∧
    (hotMetalEdge b s).link = s.link ∧
    (hotMetalEdge b s).txq = s.txq ∧
    (hotMetalEdge b s).ec = s.ec := by
  unfold hotMetalEdge risingEdge fallingEdge; repeat' split
  all_goals simp

@[simp] theorem carryBack_frame (t : Tag) (s : State) :
    (carryBack t s).pending = s.pending ∧
    (carryBack t s).clock = s.clock ∧
    (carryBack t s).draws = s.draws ∧
    (carryBack t s).ldr = s.ldr ∧
    (carryBack t s).seq = s.seq ∧
    (carryBack t s).lp = s.lp ∧
    (carryBack t s).cas = s.cas ∧
    (carryBack t s).store = s.store ∧
    (carryBack t s).sens = s.sens ∧
    (carryBack t s).hold = s.hold ∧
    (carryBack t s).link = s.link ∧
    (carryBack t s).txq = s.txq ∧
    (carryBack t s).ec = s.ec ∧
    (carryBack t s).rep = s.rep := by
  simp [carryBack]

@[simp] theorem raiseLooper_frame (s : State) :
    (raiseLooper s).pending = s.pending ∧
    (raiseLooper s).clock = s.clock ∧
    (raiseLooper s).draws = s.draws ∧
    (raiseLooper s).ldr = s.ldr ∧
    (raiseLooper s).seq = s.seq ∧
    (raiseLooper s).trk = s.trk ∧
    (raiseLooper s).cas = s.cas ∧
    (raiseLooper s).store = s.store ∧
    (raiseLooper s).sens = s.sens ∧
    (raiseLooper s).hold = s.hold ∧
    (raiseLooper s).link = s.link ∧
    (raiseLooper s).txq = s.txq ∧
    (raiseLooper s).ec = s.ec ∧
    (raiseLooper s).rep = s.rep := by
  unfold raiseLooper; split <;> simp

@[simp] theorem startLowering_frame (t : Tag) (s : State) :
    (startLowering t s).pending = s.pending ∧
    (startLowering t s).clock = s.clock ∧
    (startLowering t s).draws = s.draws ∧
    (startLowering t s).ldr = s.ldr ∧
    (startLowering t s).seq = s.seq ∧
    (startLowering t s).trk = s.trk ∧
    (startLowering t s).cas = s.cas ∧
    (startLowering t s).store = s.store ∧
    (startLowering t s).sens = s.sens ∧
    (startLowering t s).hold = s.hold ∧
    (startLowering t s).link = s.link ∧
    (startLowering t s).txq = s.txq ∧
    (startLowering t s).ec = s.ec ∧
    (startLowering t s).rep = s.rep := by
  simp [startLowering]

@[simp] theorem lowerLooper_frame (t : Tag) (s : State) :
    (lowerLooper t s).pending = s.pending ∧
    (lowerLooper t s).clock = s.clock ∧
    (lowerLooper t s).draws = s.draws ∧
    (lowerLooper t s).ldr = s.ldr ∧
    (lowerLooper t s).seq = s.seq ∧
    (lowerLooper t s).trk = s.trk ∧
    (lowerLooper t s).cas = s.cas ∧
    (lowerLooper t s).store = s.store ∧
    (lowerLooper t s).sens = s.sens ∧
    (lowerLooper t s).hold = s.hold ∧
    (lowerLooper t s).link = s.link ∧
    (lowerLooper t s).txq = s.txq ∧
    (lowerLooper t s).ec = s.ec ∧
    (lowerLooper t s).rep = s.rep := by
  unfold lowerLooper; split <;> simp

@[simp] theorem holdLowerLooper_frame (t : Tag) (s : State) :
    (holdLowerLooper t s).pending = s.pending ∧
    (holdLowerLooper t s).clock = s.clock ∧
    (holdLowerLooper t s).draws = s.draws ∧
    (holdLowerLooper t s).ldr = s.ldr ∧
    (holdLowerLooper t s).seq = s.seq ∧
    (holdLowerLooper t s).trk = s.trk ∧
    (holdLowerLooper t s).cas = s.cas ∧
    (holdLowerLooper t s).store = s.store ∧
    (holdLowerLooper t s).sens = s.sens ∧
    (holdLowerLooper t s).hold = s.hold ∧
    (holdLowerLooper t s).link = s.link ∧
    (holdLowerLooper t s).txq = s.txq ∧
    (holdLowerLooper t s).ec = s.ec ∧
    (holdLowerLooper t s).rep = s.rep := by
  unfold holdLowerLooper; split <;> simp

@[simp] theorem holdExitLooper_frame (s : State) :
    (holdExitLooper s).pending = s.pending ∧
    (holdExitLooper s).clock = s.clock ∧
    (holdExitLooper s).draws = s.draws ∧
    (holdExitLooper s).ldr = s.ldr ∧
    (holdExitLooper s).seq = s.seq ∧
    (holdExitLooper s).trk = s.trk ∧
    (holdExitLooper s).cas = s.cas ∧
    (holdExitLooper s).store = s.store ∧
    (holdExitLooper s).sens = s.sens ∧
    (holdExitLooper s).hold = s.hold ∧
    (holdExitLooper s).link = s.link ∧
    (holdExitLooper s).txq = s.txq ∧
    (holdExitLooper s).ec = s.ec ∧
    (holdExitLooper s).rep = s.rep := by
  unfold holdExitLooper; dsimp only; split <;> simp

@[simp] theorem park_frame (s : State) :
    (park s).pending = s.pending ∧
    (park s).clock = s.clock ∧
    (park s).draws = s.draws ∧
    (park s).ldr = s.ldr ∧
    (park s).seq = s.seq ∧
    (park s).trk = s.trk ∧
    (park s).cas = s.cas ∧
    (park s).store = s.store ∧
    (park s).sens = s.sens ∧
    (park s).hold = s.hold ∧
    (park s).link = s.link ∧
    (park s).txq = s.txq ∧
    (park s).ec = s.ec ∧
    (park s).rep = s.rep := by
  simp [park]

@[simp] theorem enterTension_frame (s : State) :
    (enterTension s).pending = s.pending ∧
    (enterTension s).clock = s.clock ∧
    (enterTension s).draws = s.draws ∧
    (enterTension s).ldr = s.ldr ∧
    (enterTension s).seq = s.seq ∧
    (enterTension s).trk = s.trk ∧
    (enterTension s).cas = s.cas ∧
    (enterTension s).store = s.store ∧
    (enterTension s).sens = s.sens ∧
    (enterTension s).hold = s.hold ∧
    (enterTension s).link = s.link ∧
    (enterTension s).txq = s.txq ∧
    (enterTension s).ec = s.ec ∧
    (enterTension s).rep = s.rep := by
  simp [enterTension]

@[simp] theorem stall_frame (o : LooperOp) (t : Tag) (s : State) :
    (stall o t s).pending = s.pending ∧
    (stall o t s).clock = s.clock ∧
    (stall o t s).draws = s.draws ∧
    (stall o t s).ldr = s.ldr ∧
    (stall o t s).seq = s.seq ∧
    (stall o t s).trk = s.trk ∧
    (stall o t s).cas = s.cas ∧
    (stall o t s).store = s.store ∧
    (stall o t s).sens = s.sens ∧
    (stall o t s).hold = s.hold ∧
    (stall o t s).link = s.link := by
  cases o <;> simp [stall]

@[simp] theorem rampUp_frame (s : State) :
    (rampUp s).pending = s.pending ∧
    (rampUp s).clock = s.clock ∧
    (rampUp s).draws = s.draws ∧
    (rampUp s).ldr = s.ldr ∧
    (rampUp s).seq = s.seq ∧
    (rampUp s).trk = s.trk ∧
    (rampUp s).cas = s.cas ∧
    (rampUp s).store = s.store ∧
    (rampUp s).sens = s.sens ∧
    (rampUp s).hold = s.hold ∧
    (rampUp s).link = s.link ∧
    (rampUp s).txq = s.txq ∧
    (rampUp s).ec = s.ec ∧
    (rampUp s).rep = s.rep := by
  unfold rampUp; split <;> simp

@[simp] theorem rampDown_frame (s : State) :
    (rampDown s).pending = s.pending ∧
    (rampDown s).clock = s.clock ∧
    (rampDown s).draws = s.draws ∧
    (rampDown s).ldr = s.ldr ∧
    (rampDown s).seq = s.seq ∧
    (rampDown s).trk = s.trk ∧
    (rampDown s).cas = s.cas ∧
    (rampDown s).store = s.store ∧
    (rampDown s).sens = s.sens ∧
    (rampDown s).hold = s.hold ∧
    (rampDown s).link = s.link ∧
    (rampDown s).txq = s.txq ∧
    (rampDown s).ec = s.ec ∧
    (rampDown s).rep = s.rep := by
  unfold rampDown; split <;> simp

@[simp] theorem tensionPeriod_frame (s : State) :
    (tensionPeriod s).pending = s.pending ∧
    (tensionPeriod s).clock = s.clock ∧
    (tensionPeriod s).draws = s.draws ∧
    (tensionPeriod s).ldr = s.ldr ∧
    (tensionPeriod s).seq = s.seq ∧
    (tensionPeriod s).trk = s.trk ∧
    (tensionPeriod s).cas = s.cas ∧
    (tensionPeriod s).store = s.store ∧
    (tensionPeriod s).sens = s.sens ∧
    (tensionPeriod s).hold = s.hold ∧
    (tensionPeriod s).link = s.link ∧
    (tensionPeriod s).txq = s.txq ∧
    (tensionPeriod s).ec = s.ec ∧
    (tensionPeriod s).rep = s.rep := by
  unfold tensionPeriod; split <;> simp

@[simp] theorem raisingPeriod_frame (n : Nat) (t : Tag) (s : State) :
    (raisingPeriod n t s).pending = s.pending ∧
    (raisingPeriod n t s).clock = s.clock ∧
    (raisingPeriod n t s).draws = s.draws ∧
    (raisingPeriod n t s).ldr = s.ldr ∧
    (raisingPeriod n t s).seq = s.seq ∧
    (raisingPeriod n t s).trk = s.trk ∧
    (raisingPeriod n t s).cas = s.cas ∧
    (raisingPeriod n t s).store = s.store ∧
    (raisingPeriod n t s).sens = s.sens ∧
    (raisingPeriod n t s).hold = s.hold ∧
    (raisingPeriod n t s).link = s.link := by
  unfold raisingPeriod; dsimp only; repeat' split
  all_goals simp

@[simp] theorem loweringPeriod_frame (n : Nat) (t : Tag) (s : State) :
    (loweringPeriod n t s).pending = s.pending ∧
    (loweringPeriod n t s).clock = s.clock ∧
    (loweringPeriod n t s).draws = s.draws ∧
    (loweringPeriod n t s).ldr = s.ldr ∧
    (loweringPeriod n t s).seq = s.seq ∧
    (loweringPeriod n t s).trk = s.trk ∧
    (loweringPeriod n t s).cas = s.cas ∧
    (loweringPeriod n t s).store = s.store ∧
    (loweringPeriod n t s).sens = s.sens ∧
    (loweringPeriod n t s).hold = s.hold ∧
    (loweringPeriod n t s).link = s.link := by
  unfold loweringPeriod; dsimp only; repeat' split
  all_goals simp

@[simp] theorem looperPeriod_frame (s : State) :
    (looperPeriod s).pending = s.pending ∧
    (looperPeriod s).clock = s.clock ∧
    (looperPeriod s).draws = s.draws ∧
    (looperPeriod s).ldr = s.ldr ∧
    (looperPeriod s).seq = s.seq ∧
    (looperPeriod s).trk = s.trk ∧
    (looperPeriod s).cas = s.cas ∧
    (looperPeriod s).store = s.store ∧
    (looperPeriod s).sens = s.sens ∧
    (looperPeriod s).hold = s.hold ∧
    (looperPeriod s).link = s.link := by
  unfold looperPeriod; repeat' split
  all_goals simp

@[simp] theorem setDrive_frame (b : Bool) (s : State) :
    (setDrive b s).pending = s.pending ∧
    (setDrive b s).clock = s.clock ∧
    (setDrive b s).draws = s.draws ∧
    (setDrive b s).ldr = s.ldr ∧
    (setDrive b s).seq = s.seq ∧
    (setDrive b s).trk = s.trk ∧
    (setDrive b s).lp = s.lp ∧
    (setDrive b s).cas = s.cas ∧
    (setDrive b s).store = s.store ∧
    (setDrive b s).sens = s.sens ∧
    (setDrive b s).link = s.link ∧
    (setDrive b s).txq = s.txq ∧
    (setDrive b s).ec = s.ec ∧
    (setDrive b s).rep = s.rep := by
  simp [setDrive]

@[simp] theorem createBite_frame (a : Arrival) (b : Bool) (s : State) :
    (createBite a b s).pending = s.pending ∧
    (createBite a b s).clock = s.clock ∧
    (createBite a b s).draws = s.draws ∧
    (createBite a b s).ldr = s.ldr ∧
    (createBite a b s).trk = s.trk ∧
    (createBite a b s).lp = s.lp ∧
    (createBite a b s).cas = s.cas ∧
    (createBite a b s).sens = s.sens ∧
    (createBite a b s).hold = s.hold ∧
    (createBite a b s).link = s.link ∧
    (createBite a b s).txq = s.txq ∧
    (createBite a b s).ec = s.ec := by
  simp [createBite]

@[simp] theorem openBite_frame (e : Instant) (b : Bool) (s : State) :
    (openBite e b s).pending = s.pending ∧
    (openBite e b s).clock = s.clock ∧
    (openBite e b s).draws = s.draws ∧
    (openBite e b s).ldr = s.ldr ∧
    (openBite e b s).lp = s.lp ∧
    (openBite e b s).cas = s.cas ∧
    (openBite e b s).sens = s.sens ∧
    (openBite e b s).hold = s.hold ∧
    (openBite e b s).link = s.link := by
  unfold openBite; dsimp only; repeat' split
  all_goals simp

@[simp] theorem loadOn_frame (e : Instant) (b : Bool) (s : State) :
    (loadOn e b s).pending = s.pending ∧
    (loadOn e b s).clock = s.clock ∧
    (loadOn e b s).draws = s.draws ∧
    (loadOn e b s).ldr = s.ldr ∧
    (loadOn e b s).lp = s.lp ∧
    (loadOn e b s).cas = s.cas ∧
    (loadOn e b s).sens = s.sens ∧
    (loadOn e b s).hold = s.hold ∧
    (loadOn e b s).link = s.link := by
  unfold loadOn; split <;> simp

@[simp] theorem lateOrShort_frame (t : Tag) (s : State) :
    (lateOrShort t s).pending = s.pending ∧
    (lateOrShort t s).clock = s.clock ∧
    (lateOrShort t s).draws = s.draws ∧
    (lateOrShort t s).ldr = s.ldr ∧
    (lateOrShort t s).seq = s.seq ∧
    (lateOrShort t s).trk = s.trk ∧
    (lateOrShort t s).cas = s.cas ∧
    (lateOrShort t s).store = s.store ∧
    (lateOrShort t s).sens = s.sens ∧
    (lateOrShort t s).hold = s.hold ∧
    (lateOrShort t s).link = s.link ∧
    (lateOrShort t s).txq = s.txq ∧
    (lateOrShort t s).ec = s.ec := by
  unfold lateOrShort; repeat' split
  all_goals simp

@[simp] theorem closeBite_frame (e : Instant) (b : Bite) (s : State) :
    (closeBite e b s).pending = s.pending ∧
    (closeBite e b s).clock = s.clock ∧
    (closeBite e b s).draws = s.draws ∧
    (closeBite e b s).ldr = s.ldr ∧
    (closeBite e b s).cas = s.cas ∧
    (closeBite e b s).sens = s.sens ∧
    (closeBite e b s).hold = s.hold ∧
    (closeBite e b s).link = s.link := by
  simp [closeBite]

@[simp] theorem loadOff_frame (e : Instant) (s : State) :
    (loadOff e s).pending = s.pending ∧
    (loadOff e s).clock = s.clock ∧
    (loadOff e s).draws = s.draws ∧
    (loadOff e s).ldr = s.ldr ∧
    (loadOff e s).cas = s.cas ∧
    (loadOff e s).sens = s.sens ∧
    (loadOff e s).hold = s.hold ∧
    (loadOff e s).link = s.link := by
  unfold loadOff; split <;> simp

@[simp] theorem adopt_frame (b : Bite) (t : Tag) (s : State) :
    (adopt b t s).pending = s.pending ∧
    (adopt b t s).clock = s.clock ∧
    (adopt b t s).draws = s.draws ∧
    (adopt b t s).ldr = s.ldr ∧
    (adopt b t s).trk = s.trk ∧
    (adopt b t s).lp = s.lp ∧
    (adopt b t s).cas = s.cas ∧
    (adopt b t s).sens = s.sens ∧
    (adopt b t s).hold = s.hold ∧
    (adopt b t s).link = s.link ∧
    (adopt b t s).txq = s.txq ∧
    (adopt b t s).ec = s.ec := by
  simp [adopt]

@[simp] theorem upstreamHead_frame (t : Tag) (a : BitVec 16) (s : State) :
    (upstreamHead t a s).pending = s.pending ∧
    (upstreamHead t a s).clock = s.clock ∧
    (upstreamHead t a s).draws = s.draws ∧
    (upstreamHead t a s).ldr = s.ldr ∧
    (upstreamHead t a s).lp = s.lp ∧
    (upstreamHead t a s).cas = s.cas ∧
    (upstreamHead t a s).sens = s.sens ∧
    (upstreamHead t a s).hold = s.hold ∧
    (upstreamHead t a s).link = s.link ∧
    (upstreamHead t a s).txq = s.txq ∧
    (upstreamHead t a s).ec = s.ec := by
  unfold upstreamHead; repeat' split
  all_goals simp

@[simp] theorem couple_frame (b : Bite) (t : Tag) (s : State) :
    (couple b t s).pending = s.pending ∧
    (couple b t s).clock = s.clock ∧
    (couple b t s).draws = s.draws ∧
    (couple b t s).ldr = s.ldr ∧
    (couple b t s).trk = s.trk ∧
    (couple b t s).cas = s.cas ∧
    (couple b t s).store = s.store ∧
    (couple b t s).sens = s.sens ∧
    (couple b t s).hold = s.hold ∧
    (couple b t s).link = s.link ∧
    (couple b t s).txq = s.txq ∧
    (couple b t s).ec = s.ec := by
  simp [couple]

@[simp] theorem downstreamHead_frame (t : Tag) (s : State) :
    (downstreamHead t s).pending = s.pending ∧
    (downstreamHead t s).clock = s.clock ∧
    (downstreamHead t s).draws = s.draws ∧
    (downstreamHead t s).ldr = s.ldr ∧
    (downstreamHead t s).trk = s.trk ∧
    (downstreamHead t s).cas = s.cas ∧
    (downstreamHead t s).store = s.store ∧
    (downstreamHead t s).sens = s.sens ∧
    (downstreamHead t s).hold = s.hold ∧
    (downstreamHead t s).link = s.link ∧
    (downstreamHead t s).txq = s.txq := by
  unfold downstreamHead; split <;> simp

@[simp] theorem reportMiss_frame (s : State) (m : Marker) :
    (reportMiss s m).pending = s.pending ∧
    (reportMiss s m).clock = s.clock ∧
    (reportMiss s m).draws = s.draws ∧
    (reportMiss s m).ldr = s.ldr ∧
    (reportMiss s m).seq = s.seq ∧
    (reportMiss s m).trk = s.trk ∧
    (reportMiss s m).lp = s.lp ∧
    (reportMiss s m).cas = s.cas ∧
    (reportMiss s m).store = s.store ∧
    (reportMiss s m).sens = s.sens ∧
    (reportMiss s m).link = s.link := by
  unfold reportMiss; split <;> simp

@[simp] theorem holdEntry_frame (s : State) :
    (holdEntry s).pending = s.pending ∧
    (holdEntry s).clock = s.clock ∧
    (holdEntry s).draws = s.draws ∧
    (holdEntry s).ldr = s.ldr ∧
    (holdEntry s).cas = s.cas ∧
    (holdEntry s).hold = s.hold ∧
    (holdEntry s).link = s.link ∧
    (holdEntry s).ec = s.ec ∧
    (holdEntry s).rep = s.rep := by
  simp [holdEntry]

@[simp] theorem enterHoldIfActive_frame (s : State) :
    (enterHoldIfActive s).pending = s.pending ∧
    (enterHoldIfActive s).clock = s.clock ∧
    (enterHoldIfActive s).draws = s.draws ∧
    (enterHoldIfActive s).ldr = s.ldr ∧
    (enterHoldIfActive s).cas = s.cas ∧
    (enterHoldIfActive s).hold = s.hold ∧
    (enterHoldIfActive s).link = s.link ∧
    (enterHoldIfActive s).ec = s.ec ∧
    (enterHoldIfActive s).rep = s.rep := by
  unfold enterHoldIfActive; split <;> simp

@[simp] theorem holdExit_frame (s : State) :
    (holdExit s).pending = s.pending ∧
    (holdExit s).clock = s.clock ∧
    (holdExit s).draws = s.draws ∧
    (holdExit s).ldr = s.ldr ∧
    (holdExit s).trk = s.trk ∧
    (holdExit s).store = s.store ∧
    (holdExit s).sens = s.sens ∧
    (holdExit s).hold = s.hold ∧
    (holdExit s).link = s.link ∧
    (holdExit s).txq = s.txq ∧
    (holdExit s).ec = s.ec ∧
    (holdExit s).rep = s.rep := by
  simp [holdExit]

@[simp] theorem leaveHoldIfReady_frame (s : State) :
    (leaveHoldIfReady s).pending = s.pending ∧
    (leaveHoldIfReady s).clock = s.clock ∧
    (leaveHoldIfReady s).draws = s.draws ∧
    (leaveHoldIfReady s).ldr = s.ldr ∧
    (leaveHoldIfReady s).trk = s.trk ∧
    (leaveHoldIfReady s).store = s.store ∧
    (leaveHoldIfReady s).sens = s.sens ∧
    (leaveHoldIfReady s).hold = s.hold ∧
    (leaveHoldIfReady s).link = s.link ∧
    (leaveHoldIfReady s).txq = s.txq ∧
    (leaveHoldIfReady s).ec = s.ec ∧
    (leaveHoldIfReady s).rep = s.rep := by
  unfold leaveHoldIfReady; split <;> simp

@[simp] theorem advanceAll_frame (s : State) :
    (advanceAll s).pending = s.pending ∧
    (advanceAll s).clock = s.clock ∧
    (advanceAll s).draws = s.draws ∧
    (advanceAll s).ldr = s.ldr ∧
    (advanceAll s).seq = s.seq ∧
    (advanceAll s).lp = s.lp ∧
    (advanceAll s).cas = s.cas ∧
    (advanceAll s).store = s.store ∧
    (advanceAll s).sens = s.sens ∧
    (advanceAll s).hold = s.hold ∧
    (advanceAll s).link = s.link ∧
    (advanceAll s).txq = s.txq ∧
    (advanceAll s).ec = s.ec := by
  simp [advanceAll]

@[simp] theorem dropOverdue_frame (s : State) :
    (dropOverdue s).pending = s.pending ∧
    (dropOverdue s).clock = s.clock ∧
    (dropOverdue s).draws = s.draws ∧
    (dropOverdue s).ldr = s.ldr ∧
    (dropOverdue s).seq = s.seq ∧
    (dropOverdue s).lp = s.lp ∧
    (dropOverdue s).cas = s.cas ∧
    (dropOverdue s).store = s.store ∧
    (dropOverdue s).sens = s.sens ∧
    (dropOverdue s).hold = s.hold ∧
    (dropOverdue s).link = s.link ∧
    (dropOverdue s).txq = s.txq ∧
    (dropOverdue s).ec = s.ec := by
  simp [dropOverdue]

@[simp] theorem afterMiss_frame (s : State) :
    (afterMiss s).pending = s.pending ∧
    (afterMiss s).clock = s.clock ∧
    (afterMiss s).draws = s.draws ∧
    (afterMiss s).ldr = s.ldr ∧
    (afterMiss s).trk = s.trk ∧
    (afterMiss s).lp = s.lp ∧
    (afterMiss s).cas = s.cas ∧
    (afterMiss s).store = s.store ∧
    (afterMiss s).sens = s.sens ∧
    (afterMiss s).hold = s.hold ∧
    (afterMiss s).link = s.link ∧
    (afterMiss s).txq = s.txq ∧
    (afterMiss s).ec = s.ec ∧
    (afterMiss s).rep = s.rep := by
  unfold afterMiss; split <;> simp

@[simp] theorem openWindows_frame (s : State) :
    (openWindows s).pending = s.pending ∧
    (openWindows s).clock = s.clock ∧
    (openWindows s).draws = s.draws ∧
    (openWindows s).ldr = s.ldr ∧
    (openWindows s).lp = s.lp ∧
    (openWindows s).cas = s.cas ∧
    (openWindows s).store = s.store ∧
    (openWindows s).sens = s.sens ∧
    (openWindows s).hold = s.hold ∧
    (openWindows s).link = s.link ∧
    (openWindows s).txq = s.txq ∧
    (openWindows s).ec = s.ec ∧
    (openWindows s).rep = s.rep := by
  unfold openWindows; dsimp only; split <;> simp

@[simp] theorem leadTail_frame (s : State) :
    (leadTail s).pending = s.pending ∧
    (leadTail s).clock = s.clock ∧
    (leadTail s).draws = s.draws ∧
    (leadTail s).ldr = s.ldr ∧
    (leadTail s).trk = s.trk ∧
    (leadTail s).cas = s.cas ∧
    (leadTail s).store = s.store ∧
    (leadTail s).sens = s.sens ∧
    (leadTail s).hold = s.hold ∧
    (leadTail s).link = s.link ∧
    (leadTail s).txq = s.txq ∧
    (leadTail s).ec = s.ec ∧
    (leadTail s).rep = s.rep := by
  unfold leadTail; dsimp only; split <;> simp

@[simp] theorem predict_frame (s : State) :
    (predict s).pending = s.pending ∧
    (predict s).clock = s.clock ∧
    (predict s).draws = s.draws ∧
    (predict s).ldr = s.ldr ∧
    (predict s).cas = s.cas ∧
    (predict s).sens = s.sens ∧
    (predict s).hold = s.hold ∧
    (predict s).link = s.link := by
  unfold predict; repeat' split
  all_goals simp

@[simp] theorem alignDetector_frame (s : State) :
    (alignDetector s).pending = s.pending ∧
    (alignDetector s).clock = s.clock ∧
    (alignDetector s).draws = s.draws ∧
    (alignDetector s).ldr = s.ldr ∧
    (alignDetector s).seq = s.seq ∧
    (alignDetector s).trk = s.trk ∧
    (alignDetector s).lp = s.lp ∧
    (alignDetector s).cas = s.cas ∧
    (alignDetector s).store = s.store ∧
    (alignDetector s).hold = s.hold ∧
    (alignDetector s).link = s.link ∧
    (alignDetector s).txq = s.txq ∧
    (alignDetector s).ec = s.ec ∧
    (alignDetector s).rep = s.rep := by
  simp [alignDetector]

@[simp] theorem forceArrives_frame (s : State) :
    (forceArrives s).pending = s.pending ∧
    (forceArrives s).clock = s.clock ∧
    (forceArrives s).draws = s.draws ∧
    (forceArrives s).ldr = s.ldr ∧
    (forceArrives s).seq = s.seq ∧
    (forceArrives s).trk = s.trk ∧
    (forceArrives s).lp = s.lp ∧
    (forceArrives s).cas = s.cas ∧
    (forceArrives s).store = s.store ∧
    (forceArrives s).hold = s.hold ∧
    (forceArrives s).link = s.link ∧
    (forceArrives s).txq = s.txq ∧
    (forceArrives s).ec = s.ec ∧
    (forceArrives s).rep = s.rep := by
  simp [forceArrives]

@[simp] theorem sensorLost_frame (d : BitVec 16) (s : State) :
    (sensorLost d s).pending = s.pending ∧
    (sensorLost d s).clock = s.clock ∧
    (sensorLost d s).draws = s.draws ∧
    (sensorLost d s).ldr = s.ldr ∧
    (sensorLost d s).seq = s.seq ∧
    (sensorLost d s).trk = s.trk ∧
    (sensorLost d s).lp = s.lp ∧
    (sensorLost d s).cas = s.cas ∧
    (sensorLost d s).store = s.store ∧
    (sensorLost d s).sens = s.sens ∧
    (sensorLost d s).hold = s.hold ∧
    (sensorLost d s).link = s.link := by
  unfold sensorLost; split <;> simp

end Sys2Proof.Machine
end

