-- ==== Sys2Proof/Laws/Ops.lean ====
section
/-! SUPPORT. For each shared operation, once, everything it can do; the proofs cite these instead of unfolding it. -/

namespace Sys2Proof.Machine

/-! ### Sticky flags -/

/-- Two flags have two places. -/
theorem StickyFlag.place_inj (f g : StickyFlag) : f.place = g.place ↔ f = g := by
  cases f <;> cases g <;> decide

/-- Setting a flag marks that flag with the present instant and keeps the marks of the others. -/
@[simp] theorem setSticky_stickyMark (f g : StickyFlag) (s : State) :
    (setSticky f s).stickyMark g = if g = f then some ⟨s.clock, s.txq.nextOrder⟩ else s.stickyMark g := by
  simp only [setSticky, State.stickyMark, setRep_rep, Fin.getElem_fin]
  rw [Vector.getElem_set]
  by_cases h : g = f
  · simp [h]
  · have : f.place.val ≠ g.place.val := fun e => h ((StickyFlag.place_inj f g).1 (Fin.ext e)).symm
    simp [h, this]

@[simp] theorem setStickyIf_stickyMark (c : Bool) (f g : StickyFlag) (s : State) :
    (setStickyIf c f s).stickyMark g = if c && g == f then some ⟨s.clock, s.txq.nextOrder⟩ else s.stickyMark g := by
  cases c
  · simp [setStickyIf]
  · rw [show setStickyIf true f s = setSticky f s from rfl, setSticky_stickyMark]
    simp

/-- Nothing else of the Status Reporter changes with a flag. -/
@[simp] theorem setSticky_reports (f : StickyFlag) (s : State) :
    (setSticky f s).rep.lastAlarm = s.rep.lastAlarm ∧ (setSticky f s).rep.periodFrom = s.rep.periodFrom := by
  simp [setSticky]

@[simp] theorem setStickyIf_reports (c : Bool) (f : StickyFlag) (s : State) :
    (setStickyIf c f s).rep.lastAlarm = s.rep.lastAlarm ∧ (setStickyIf c f s).rep.periodFrom = s.rep.periodFrom := by
  cases c <;> simp [setStickyIf]

/-- The marks are read from the Status Reporter alone. -/
theorem stickyMark_of_rep {s t : State} (h : t.rep = s.rep) (f : StickyFlag) : t.stickyMark f = s.stickyMark f := by
  simp [State.stickyMark, h]

@[simp] theorem offer_stickyMark (f : TxFrame) (g : StickyFlag) (s : State) :
    (offer f s).stickyMark g = s.stickyMark g := stickyMark_of_rep (by simp) g

@[simp] theorem raiseAlarm_stickyMark (k : AlarmKind) (tag : Tag) (d : BitVec 16) (g : StickyFlag) (s : State) :
    (raiseAlarm k tag d s).stickyMark g = s.stickyMark g := by
  simp [raiseAlarm, State.stickyMark]

/-! ### Offers and alarms -/

/-- What an offer does to the Transmit Queue and the counts depends on them and the clock only. -/
theorem offer_congr (f : TxFrame) {s t : State} (hq : t.txq = s.txq) (he : t.ec = s.ec) (hc : t.clock = s.clock) :
    (offer f t).txq = (offer f s).txq ∧ (offer f t).ec = (offer f s).ec := by
  simp only [offer, offerToFull, takeSlot, countDropped, hq, he, hc]
  repeat' split
  all_goals first | exact ⟨rfl, rfl⟩ | exact ⟨hq, he⟩ | simp [hq, he]

/-- A station that is JOINING or OFF-LINK discards every frame at the offer (R159). -/
theorem offer_silent (f : TxFrame) (s : State) (h : s.ec.link.sends = false) : offer f s = s := by
  simp [offer, h]

/-- An offer takes a slot, with or without counting a dropped frame, or counts one, or does nothing. -/
theorem offer_cases (f : TxFrame) (s : State) :
    offer f s = s ∨ (∃ i, offer f s = takeSlot i f s) ∨ (∃ i, offer f s = countDropped (takeSlot i f s)) ∨
    offer f s = countDropped s := by
  unfold offer offerToFull
  repeat' split
  all_goals
    first
      | exact .inl rfl
      | exact .inr (.inl ⟨_, rfl⟩)
      | exact .inr (.inr (.inl ⟨_, rfl⟩))
      | exact .inr (.inr (.inr rfl))

/-- An offer keeps the link state and the error counts. -/
theorem offer_ec (f : TxFrame) (s : State) :
    (offer f s).ec = s.ec ∨ (offer f s).ec = { s.ec with dropped := satAdd s.ec.dropped 1 } := by
  rcases offer_cases f s with h | ⟨i, h⟩ | ⟨i, h⟩ | h <;> simp [h, countDropped, takeSlot]

/-- Raising an alarm is its offer and the record of its kind. -/
@[simp] theorem raiseAlarm_queue (k : AlarmKind) (tag : Tag) (d : BitVec 16) (s : State) :
    (raiseAlarm k tag d s).txq = (offer (.alarm k s.rep.lastAlarm tag d) s).txq ∧
    (raiseAlarm k tag d s).ec = (offer (.alarm k s.rep.lastAlarm tag d) s).ec ∧
    (raiseAlarm k tag d s).rep = { s.rep with lastAlarm := some k } := by
  simp [raiseAlarm]

/-! ### Schedules -/

/-- Setting a record ENTERED keeps tags and values: the lookup of a tag finds the same figures. -/
theorem enterRecord_find (tag x : Tag) (table : List Record) :
    (enterRecord tag table).find? (fun r => r.tag == x) =
      (table.find? fun r => r.tag == x).map fun r => if r.tag = tag then { r with state := .entered } else r := by
  induction table with
  | nil => rfl
  | cons r rest ih =>
    simp only [enterRecord, List.map_cons, List.find?_cons] at ih ⊢
    have : (if r.tag = tag then { r with state := RecordState.entered } else r).tag = r.tag := by split <;> rfl
    rw [this]
    cases r.tag == x
    · exact ih
    · rfl

theorem enterRecord_getLast (tag : Tag) (table : List Record) :
    (enterRecord tag table).getLast? =
      table.getLast?.map fun r => if r.tag = tag then { r with state := .entered } else r := by
  simp [enterRecord]

/-- Setting a record ENTERED changes no lookup. -/
theorem lookup_enterRecord (s : State) (tag x : Tag) :
    (s.setStore { s.store with table := enterRecord tag s.store.table }).lookup x = s.lookup x := by
  have hv : ∀ r : Record, (if r.tag = tag then { r with state := RecordState.entered } else r).values = r.values := by
    intro r; split <;> rfl
  have hb : ∀ r : Record, (if r.tag = tag then { r with state := RecordState.entered } else r).base = r.base := by
    intro r; split <;> rfl
  unfold State.lookup
  simp only [setStore_store, findRecord, enterRecord_find, enterRecord_getLast]
  by_cases h0 : x = 0
  · simp only [h0, if_true]
    cases s.store.table.getLast? <;> simp [hv, hb]
  · simp only [h0, if_false]
    cases s.store.table.find? (fun r => r.tag == x) <;> simp [hv, hb]
    cases s.store.table.getLast? <;> simp [hv, hb]

/-! ### Sensing -/

/-- A sample that decides a load-on with no drill armed: the detector is LOADED and the Sequencer takes the load-on. -/
theorem execForceSample_loadOn {s : State} {force : Nat} (now : Instant) (h : DecidesLoadOn s force)
    (hd : s.sens.drill = none) :
    execForceSample now force s = .next (loadOn (runFirst s now) false
      ((s.setClock now).setSens { s.sens with forceAt := now, loaded := true, run := none })) := by
  obtain ⟨⟨h0, h1, h2, h3⟩, hl, hf, hn⟩ := h
  cases hr : s.sens.run <;>
    simp_all [execForceSample, sampling, takeForce, forceArrives, evaluateForce, farSample, extendRun, runLength, runFirst,
      FarSide, decideLoadOn]

/-- A sample that decides a load-off: the detector is UNLOADED and the Sequencer takes the load-off, which may end a hold. -/
theorem execForceSample_loadOff {s : State} {force : Nat} (now : Instant) (h : DecidesLoadOff s force) :
    execForceSample now force s = .next (leaveHoldIfReady (loadOff (runFirst s now)
      ((s.setClock now).setSens { s.sens with forceAt := now, loaded := false, run := none }))) := by
  obtain ⟨⟨h0, h1, h2, h3⟩, hl, hf, hn⟩ := h
  cases hr : s.sens.run <;>
    simp_all [execForceSample, sampling, takeForce, forceArrives, evaluateForce, farSample, extendRun, runLength, runFirst,
      FarSide, decideLoadOff]

/-! ### Tracking -/

/-- While force samples arrive no load event is predicted. -/
theorem predictsNothing_fresh {s : State} (h : s.sens.forceStale = false) : PredictsNothing s := by
  intro h'
  rw [h] at h'
  cases h'

/-! ### The line -/

/-- What a station must be to hear the line. -/
theorem hears_iff (s : State) : hears s = true ↔ Attends s := by
  simp [hears, Attends]

/-- What a station must be to take a frame as clean, or as rejected by another. -/
theorem hearsSound_iff (s : State) : hearsSound s = true ↔ Listens s := by
  simp only [hearsSound, Link.foundError, Bool.and_eq_true, hears_iff, Listens]
  cases s.link.reception <;> simp

/-- The length is reckoned once 17 bits are read, from the bits 14 to 17 after the start bit. -/
theorem reckonedLength_eq (bits : List Bool) :
    reckonedLength bits = if 17 ≤ bits.length then
        some (min 8 (8 * (bits.getD 13 false).toNat + 4 * (bits.getD 14 false).toNat + 2 * (bits.getD 15 false).toNat +
          (bits.getD 16 false).toNat))
      else none := by
  unfold reckonedLength
  rcases h : bits.drop 13 with _ | ⟨b3, _ | ⟨b2, _ | ⟨b1, _ | ⟨b0, r⟩⟩⟩⟩
  all_goals
    have hl := congrArg List.length h
    simp at hl
    try rw [if_neg (by omega)]
  rw [if_pos (by omega)]
  have g : ∀ k, bits.getD (13 + k) false = (b3 :: b2 :: b1 :: b0 :: r).getD k false := fun k => by
    rw [← h]
    simp [List.getD]
  rw [show (14 : Nat) = 13 + 1 from rfl, show (15 : Nat) = 13 + 2 from rfl, show (16 : Nat) = 13 + 3 from rfl, g 1, g 2,
    g 3, show bits.getD 13 false = _ from g 0]
  rfl

/-- A frame has been read once its bits reach the last marker bit of the reckoned length. -/
theorem frameRead_iff (bits : List Bool) :
    frameRead bits = true ↔ ∃ l, reckonedLength bits = some l ∧ 36 + 9 * l ≤ bits.length := by
  unfold frameRead
  cases reckonedLength bits <;> simp [lastMarker, captureBits]
  omega

/-- While a frame in which no error has been found is being received, the recessive count stands. -/
theorem recessiveBits_receiving {s : State} {r : Reception} (h : s.link.reception = some r) (he : r.error = false) :
    s.recessiveBits = s.link.recessive := by
  simp [State.recessiveBits, Link.soundSoFar, h, he]

/-- On a line without a frame, or within one in error, the recessive count counts on with the bit times. -/
theorem recessiveBits_free {s : State} (ha : Attends s) (hr : s.link.soundSoFar = false) :
    s.recessiveBits = s.link.recessive + s.bitTimesSince s.link.recessiveAt := by
  simp [State.recessiveBits, ha, hr]

/-- Before the link is given the recessive count stands. -/
theorem recessiveBits_unlinked {s : State} (h : s.ldr.phase ≠ .running) : s.recessiveBits = s.link.recessive := by
  simp [State.recessiveBits, h]

/-- No frame is being received in which no error has been found. -/
theorem soundSoFar_iff (l : Link) : l.soundSoFar = false ↔ ∀ r, l.reception = some r → r.error = true := by
  unfold Link.soundSoFar
  cases l.reception <;> simp

/-- The bits read in a frame in error, part by part: the run of recessive bits is the same however many of them are counted to
idle. -/
theorem countRead_recessiveBits (w : Bool) (past : Nat) (read : List Bool) (s : State) :
    (countRead w past read s).link.recessive = min past (trailingRecessive read) ∧
    (countRead w past read s).link.carried + (countRead w past read s).link.recessive = trailingRecessive read := by
  constructor <;> simp [countRead]

/-- A driven slot leaves no run of recessive bits. -/
theorem trailingRecessive_driven (bits : List Bool) (slot : RejectSlot) :
    trailingRecessive (bits ++ slotRead true slot) = 0 := by
  simp [trailingRecessive, slotRead]

/-- A slot that this station leaves alone: the run goes on through two recessive bits, and is 1 or 0 otherwise. -/
theorem trailingRecessive_undriven (bits : List Bool) (slot : RejectSlot) :
    trailingRecessive (bits ++ slotRead false slot) =
      if slot.second then if slot.first then trailingRecessive bits + 2 else 1 else 0 := by
  cases hf : slot.first <;> cases hs : slot.second <;> simp [trailingRecessive, slotRead, slotBits, hf, hs]

/-- The end of a frame in error, part by part (R145, R149, R152). -/
theorem endInError_link (drives : Bool) (frame : ReadFrame) (s : State) :
    let read := frame.bits ++ slotRead drives frame.slot
    let run := trailingRecessive read
    (endInError drives frame s).link = { s.link with
      reception := none, recessive := min frame.past run, recessiveAt := s.clock
      carried := run - min frame.past run
      idle := s.link.idleInError || tenRecessive (read.drop (read.length - frame.past))
      extraWait := false, capture := s.clock, rejectDriven := drives } := by
  simp [endInError, endReception, countRead]

/-- The run of recessive bits on the line, after an update of the clock too. -/
theorem recessiveRun_at (s : State) (now : Instant) :
    (s.setClock now).recessiveRun = s.link.carried + s.link.recessive +
      (if s.ldr.phase != .running || s.link.attempt.isSome || s.link.reception.any fun r => !r.error then 0
       else elapsed now s.link.recessiveAt / bitTime s.ldr.rateCode) := by
  show s.link.carried + (if s.ldr.phase != .running || s.link.attempt.isSome || s.link.reception.any (fun r => !r.error)
    then s.link.recessive else s.link.recessive + elapsed now s.link.recessiveAt / bitTime s.ldr.rateCode) = _
  split <;> omega

/-- JOINING has counted its 16 bits when the run of recessive bits and the time since the entry both reach them. -/
theorem joinBits_quiet (s : State) :
    quietBits ≤ s.joinBits ↔ quietBits ≤ s.recessiveRun ∧ quietBits ≤ s.ec.joinBits + s.bitTimesSince s.ec.joinAt := by
  simp [State.joinBits]

/-- An idle span is complete when the run of recessive bits and the time since its beginning both reach 16 bits. -/
theorem spanBits_quiet (s : State) :
    quietBits ≤ s.spanBits ↔ quietBits ≤ s.recessiveRun ∧ quietBits ≤ s.ec.spanBits + s.bitTimesSince s.ec.spanAt := by
  simp [State.spanBits]

/-- A station that has been in its link state for the whole slot, or for two bit times, drives it by that state. -/
theorem drivesSlot_settled {s : State} (h : ∀ t, s.ec.silentTo = some t → 2 ≤ s.bitTimesSince t) :
    s.drivesSlot = s.ec.link.vetoes := by
  cases hs : s.ec.silentTo with
  | none => simp [State.drivesSlot, hs]
  | some t =>
    have := h t hs
    simp [State.drivesSlot, hs]
    omega

/-- A station that left JOINING or OFF-LINK within the slot leaves it alone. -/
theorem drivesSlot_within {s : State} {t : Instant} (hs : s.ec.silentTo = some t) (h : s.bitTimesSince t < 2) :
    s.drivesSlot = false := by
  simp [State.drivesSlot, hs]
  omega

/-- After a completed span the bit count is 0, so that the next span takes 16 bit times more. -/
theorem spanDone_spanBits (s : State) : (s.setEc (s.ec.spanDone s.clock)).spanBits = 0 := by
  have h : s.bitTimesSince s.clock = 0 := by simp [State.bitTimesSince, elapsed]
  have hs : (s.ec.spanDone s.clock).spanBits = 0 ∧ (s.ec.spanDone s.clock).spanAt = s.clock := by
    unfold ErrorConfinement.spanDone
    dsimp only
    split <;> simp [ErrorConfinement.recover]
  simp only [State.spanBits, setEc_ec, hs, Nat.zero_add]
  rw [show (s.setEc (s.ec.spanDone s.clock)).bitTimesSince s.clock = s.bitTimesSince s.clock from rfl, h, Nat.min_zero]

/-- The bits an attempt sends, before and after a bit error. -/
theorem sending_of_attempt {s : State} {a : Attempt} {x : Slot} (ha : s.link.attempt = some a)
    (hx : s.txq.slots[a.slot] = some x) :
    s.sending = if a.breaking then (wireBits (x.frame.content s.sender a.age) a.check).take a.bits ++ List.replicate 8 false
      else wireBits (x.frame.content s.sender a.age) a.check := by
  have h : s.txq.slots[a.slot.val] = some x := hx
  simp [State.sending, State.wire, ha, h, breakBits]

/-- The place of the last bit of the check word, as the words of the statements have it. -/
theorem checkEnd_slot (s : State) (a : Attempt) : checkEnd (slotLength a.slot s) = checkWordEnd s a := by
  unfold slotLength checkWordEnd checkEnd captureBits
  cases s.txq.slots[a.slot] <;> simp
  omega

/-- Whether and when the flaw has been sent, as the words of the statements have it. -/
theorem flawSent_eq (s : State) (now : Instant) : (s.setClock now).flawSent = flawSentBy s now := by
  unfold State.flawSent
  cases h : s.link.attempt with
  | none => simp [h]
  | some a =>
    simp [h, State.frameBitsSent, State.bitTimesSince, checkEnd_slot, flawSentBy]
    rfl

theorem checkSentAt_eq (s : State) (a : Attempt) : s.checkSentAt a = checkWordSentAt s a := by
  simp only [State.checkSentAt, checkEnd_slot]

/-- The flaw has taken effect: DRILL-FIRED carries the instant at which the last bit of the check word ended, and the drill is disarmed. -/
@[simp] theorem fireFlaw_stickyMark (a : Attempt) (f : StickyFlag) (s : State) :
    (fireFlaw a s).stickyMark f = if f = .drillFired then some ⟨s.checkSentAt a, s.txq.nextOrder⟩ else s.stickyMark f := by
  simp [fireFlaw]

@[simp] theorem fireFlaw_link (a : Attempt) (s : State) : (fireFlaw a s).link = { s.link with flawArmed := false } := by
  simp [fireFlaw]

@[simp] theorem fireFlaw_reports (a : Attempt) (s : State) :
    (fireFlaw a s).rep.lastAlarm = s.rep.lastAlarm ∧ (fireFlaw a s).rep.periodFrom = s.rep.periodFrom := by
  simp [fireFlaw]

/-- A flaw is caught up with if it has been sent, and nothing changes otherwise. -/
theorem catchUpFlaw_cases (s : State) :
    (s.flawSent = false ∧ catchUpFlaw s = s) ∨
    ∃ a, s.link.attempt = some a ∧ s.flawSent = true ∧ catchUpFlaw s = fireFlaw a s := by
  unfold catchUpFlaw
  cases h : s.link.attempt with
  | none => exact .inl ⟨by simp [State.flawSent, h], rfl⟩
  | some a => cases hs : s.flawSent <;> simp

/-- Once caught up with, the arming is what the clock gives. -/
@[simp] theorem catchUpFlaw_link (s : State) : (catchUpFlaw s).link = { s.link with flawArmed := s.flawStillArmed } := by
  rcases catchUpFlaw_cases s with ⟨h, e⟩ | ⟨a, _, h, e⟩ <;> simp [e, State.flawStillArmed, h]

/-- The bits taken begin with the start bit, and no more of them are held than have been taken. -/
theorem takenBits_length (s : State) : s.takenBits.length ≤ s.bitsTaken := by
  unfold State.takenBits
  split
  · exact List.length_take_le ..
  · exact Nat.zero_le _

/-- No more bits are sent than there are. -/
theorem bitsSent_le (s : State) : s.bitsSent ≤ s.sending.length := by
  unfold State.bitsSent
  split <;> omega

end Sys2Proof.Machine
end

