-- ==== Sys2Proof/Laws/HandOff.lean ====
section
/-! SUPPORT. What opening and closing a bite do to every part of the state, for any arrival or bite. -/

namespace Sys2Proof.Machine

/-- A chain of offers reads the Transmit Queue, the counts and the clock only. -/
theorem offers_congr (fs : List TxFrame) {s t : State} (hq : t.txq = s.txq) (he : t.ec = s.ec) (hc : t.clock = s.clock) :
    (fs.foldl (fun u f => offer f u) t).txq = (fs.foldl (fun u f => offer f u) s).txq ∧
    (fs.foldl (fun u f => offer f u) t).ec = (fs.foldl (fun u f => offer f u) s).ec := by
  induction fs generalizing s t with
  | nil => exact ⟨hq, he⟩
  | cons f fs ih =>
    obtain ⟨h1, h2⟩ := offer_congr f hq he hc
    exact ih h1 h2 (by simp [hc])

/-- The lookups read the configuration and the schedules only. -/
theorem lookup_congr {s t : State} (hl : t.ldr = s.ldr) (hs : t.store = s.store) (x : Tag) : t.lookup x = s.lookup x := by
  simp [State.lookup, State.position, hl, hs]

/-- The bite an arrival makes. -/
def biteOf (s : State) (a : Arrival) (predicted : Bool) : Bite :=
  { tag := a.tag, unannounced := a.unannounced, early := a.early, substituted := (findRecord s.store.table a.tag).isNone,
    predicted := predicted, partner := none, impact := newImpact (s.lookup a.tag).values }

/-- Creating a bite: the record of its tag is ENTERED, its flags are set, the bite stands; nothing else changes. -/
theorem createBite_spec (a : Arrival) (predicted : Bool) (s : State) :
    (createBite a predicted s).seq = { s.seq with bite := some (biteOf s a predicted) } ∧
    (createBite a predicted s).store =
      { s.store with table := if a.tag = 0 then s.store.table else enterRecord a.tag s.store.table } ∧
    (∀ f, (createBite a predicted s).stickyMark f =
      if (f == .early && a.early) || (f == .unannounced && a.unannounced) ||
        (f == .substituted && (findRecord s.store.table a.tag).isNone)
      then some ⟨s.clock, s.txq.nextOrder⟩ else s.stickyMark f) ∧
    (createBite a predicted s).rep.lastAlarm = s.rep.lastAlarm ∧
    (createBite a predicted s).rep.periodFrom = s.rep.periodFrom := by
  have hk : ∀ u : State, u.ldr = s.ldr →
      u.store = { s.store with table := if a.tag = 0 then s.store.table else enterRecord a.tag s.store.table } →
      u.lookup a.tag = s.lookup a.tag := by
    intro u hl hs
    by_cases h0 : a.tag = 0
    · exact lookup_congr hl (by simpa [h0] using hs) _
    · rw [← lookup_enterRecord s a.tag a.tag]
      exact lookup_congr (by simpa using hl) (by rw [hs, if_neg h0]; rfl) _
  refine ⟨?_, ?_, ?_, ?_, ?_⟩
  · simp only [createBite, setSeq_seq, setStickyIf_frame, setStore_seq]
    rw [hk _ (by simp) (by simp)]
    rfl
  · simp [createBite]
  · intro f
    simp only [createBite, setSeq_stickyMark, setStickyIf_stickyMark, setStore_stickyMark, setStickyIf_frame,
      setStore_clock, setStore_txq]
    cases f <;> cases a.early <;> cases a.unannounced <;> cases (findRecord s.store.table a.tag).isNone <;> rfl
  · simp [createBite]
  · simp [createBite]

/-- The frames an arrival offers. -/
def arrivalFrames (a : Arrival) (last : Option AlarmKind) (event : Instant) : List TxFrame :=
  (if a.unannounced then [.alarm .unannouncedLoad last 0 0] else []) ++ [.headOn a.tag event]

/-- Opening a bite, for any arrival. -/
theorem openBite_spec (event : Instant) (predicted : Bool) (s : State) :
    let a := s.arrival
    let t := openBite event predicted s
    t.seq = { stand := if s.atLast then .coupled else .threading, bite := some (biteOf s a predicted) } ∧
    t.trk = (if a.bound then
        { markers := nameTail a.tag (removeFirstHead s.trk.markers)
          entryTag := if s.trk.entryTag = 0 then a.tag else s.trk.entryTag }
      else { s.trk with markers := removeFirstHead s.trk.markers }) ∧
    t.store = { s.store with table := if a.tag = 0 then s.store.table else enterRecord a.tag s.store.table } ∧
    Offers s t (arrivalFrames a s.rep.lastAlarm event) ∧
    (∀ f, t.stickyMark f =
      if (f == .early && a.early) || (f == .unannounced && a.unannounced) ||
        (f == .substituted && (findRecord s.store.table a.tag).isNone)
      then some ⟨s.clock, s.txq.nextOrder⟩ else s.stickyMark f) ∧
    t.rep.lastAlarm = (if a.unannounced then some .unannouncedLoad else s.rep.lastAlarm) ∧
    t.rep.periodFrom = s.rep.periodFrom := by
  intro a t
  have hbite : ∀ u : State, u.ldr = s.ldr → u.store = s.store → biteOf u a predicted = biteOf s a predicted := by
    intro u hl hs; simp [biteOf, lookup_congr hl hs, hs]
  -- the state the bite is created in
  obtain ⟨v, hv, hseq, hstore, hrep, hclock, htxq, hec, hldr, htrk⟩ :
      ∃ v, t = (let w := createBite a predicted v
                let w := if a.unannounced then raiseAlarm .unannouncedLoad 0 0 w else w
                let w := offer (.headOn a.tag event) w
                w.setSeq { w.seq with stand := if w.atLast then .coupled else .threading }) ∧
        v.seq = s.seq ∧ v.store = s.store ∧ v.rep = s.rep ∧ v.clock = s.clock ∧ v.txq = s.txq ∧ v.ec = s.ec ∧
        v.ldr = s.ldr ∧
        v.trk = (if a.bound then
          { markers := nameTail a.tag (removeFirstHead s.trk.markers)
            entryTag := if s.trk.entryTag = 0 then a.tag else s.trk.entryTag }
          else { s.trk with markers := removeFirstHead s.trk.markers }) := by
    refine ⟨if a.bound then carryBack a.tag (s.setTrk { s.trk with markers := removeFirstHead s.trk.markers })
      else s.setTrk { s.trk with markers := removeFirstHead s.trk.markers }, rfl, ?_⟩
    cases a.bound <;> simp [carryBack] <;> rfl
  obtain ⟨c1, c2, c3, c4, c5⟩ := createBite_spec a predicted v
  have hlast : ∀ u : State, u.ldr = s.ldr → u.atLast = s.atLast := fun u h => by simp [State.atLast, State.position, h]
  rw [hv]
  cases hu : a.unannounced
  · have hx : (createBite a predicted v).txq = s.txq ∧ (createBite a predicted v).ec = s.ec ∧
        (createBite a predicted v).clock = s.clock := by simp [htxq, hec, hclock]
    obtain ⟨o1, o2⟩ := offers_congr [.headOn a.tag event] hx.1 hx.2.1 hx.2.2
    simp only [List.foldl_cons, List.foldl_nil] at o1 o2
    refine ⟨?_, ?_, ?_, ?_, ?_, ?_, ?_⟩
    · simp [c1, hbite v hldr hstore, hlast _ (show (offer (.headOn a.tag event) (createBite a predicted v)).ldr = s.ldr by simp [hldr])]
    · simp [htrk]
    · simp [c2, hstore]
    · simp [Offers, arrivalFrames, hu, o1, o2]
    · intro f; simp [c3, hu, hstore, hclock, htxq, stickyMark_of_rep hrep]
    · simp [c4, hrep]
    · simp [c5, hrep]
  · have hx : (createBite a predicted v).txq = s.txq ∧ (createBite a predicted v).ec = s.ec ∧
        (createBite a predicted v).clock = s.clock := by simp [htxq, hec, hclock]
    have hr : (createBite a predicted v).rep.lastAlarm = s.rep.lastAlarm := by rw [c4, hrep]
    obtain ⟨p1, p2⟩ := offer_congr (.alarm .unannouncedLoad s.rep.lastAlarm 0 0) hx.1 hx.2.1 hx.2.2
    obtain ⟨o1, o2⟩ := offer_congr (.headOn a.tag event)
      (s := offer (.alarm .unannouncedLoad s.rep.lastAlarm 0 0) s)
      (t := raiseAlarm .unannouncedLoad 0 0 (createBite a predicted v))
      (by simpa [hr] using p1) (by simpa [hr] using p2) (by simp [hclock])
    refine ⟨?_, ?_, ?_, ?_, ?_, ?_, ?_⟩
    · have hl := hlast (offer (.headOn a.tag event) (raiseAlarm .unannouncedLoad 0 0 (createBite a predicted v)))
        (by simp [hldr])
      simp only [BitVec.ofNat_eq_ofNat] at hl
      simp [c1, hbite v hldr hstore, hl]
    · simp [htrk]
    · simp [c2, hstore]
    · simp only [BitVec.ofNat_eq_ofNat] at o1 o2
      simp [Offers, arrivalFrames, hu, o1, o2]
    · intro f; simp [c3, hu, hstore, hclock, htxq, stickyMark_of_rep hrep]
    · simp
    · simp [c5, hrep]

/-- Closing a bite. -/
theorem closeBite_spec (event : Instant) (b : Bite) (s : State) :
    let late := s.seq.stand == .coupled && !s.atLast
    let t := closeBite event b s
    t.seq = { stand := if anyWindowOpen s.trk.markers then .awaiting else .empty, bite := none } ∧
    t.trk = { s.trk with markers := removeTail b.tag s.trk.markers } ∧
    t.store = { s.store with table := retireEntered s.store.table } ∧
    t.lp = (if late then (lowerLooper b.tag (s.setLp { s.lp with trim := 0 })).lp else { s.lp with trim := 0 }) ∧
    Offers s t [.tailOff b.tag event] ∧
    (∀ f, if (f == .lateLower && late) || (f == .shortPiece && s.seq.stand == .threading)
      then (t.stickyMark f).map Mark.instant = some s.clock else t.stickyMark f = s.stickyMark f) ∧
    t.rep.lastAlarm = s.rep.lastAlarm ∧ t.rep.periodFrom = s.rep.periodFrom := by
  intro late t
  have htail : ∀ l : List Marker, anyWindowOpen (removeTail b.tag l) = anyWindowOpen l := by
    have he : ∀ (p : Marker → Bool) (l : List Marker), (∀ m, p m = true → m.kind = .tail) →
        anyWindowOpen (l.eraseP p) = anyWindowOpen l := by
      intro p l hp
      induction l with
      | nil => rfl
      | cons m rest ih =>
        by_cases h : p m = true
        · simp [h, anyWindowOpen, hp m h]
        · simp only [List.eraseP_cons, h]
          simpa [anyWindowOpen] using congrArg ((m.kind == .head && m.windowOpen) || ·) ih
    intro l
    unfold removeTail
    split
    · exact he _ _ (by simp; intro m h _; exact h)
    · exact he _ _ (by simp)
  have hlow : ∀ (u : State), u.lp = { s.lp with trim := 0 } →
      (lowerLooper b.tag u).lp = (lowerLooper b.tag (s.setLp { s.lp with trim := 0 })).lp := by
    intro u hu
    unfold lowerLooper startLowering
    simp only [hu, setLp_lp]
    split <;> simp [hu]
  -- the state the last part acts on
  obtain ⟨v, hv, h1, h2, h3, h4, h5, h6, h7, h8, h9⟩ :
      ∃ v, t = (let w := lateOrShort b.tag v
                w.setSeq { stand := if anyWindowOpen w.trk.markers then .awaiting else .empty, bite := none }) ∧
        v.seq = s.seq ∧ v.trk = { s.trk with markers := removeTail b.tag s.trk.markers } ∧
        v.store = { s.store with table := retireEntered s.store.table } ∧ v.lp = { s.lp with trim := 0 } ∧
        v.txq = (offer (.tailOff b.tag event) s).txq ∧ v.ec = (offer (.tailOff b.tag event) s).ec ∧ v.rep = s.rep ∧
        v.clock = s.clock ∧ v.ldr = s.ldr := by
    refine ⟨_, rfl, ?_⟩
    simp [retire]
  have hlast : v.atLast = s.atLast := by simp [State.atLast, State.position, h9]
  have hcases : (lateOrShort b.tag v).lp =
        (if late then (lowerLooper b.tag (s.setLp { s.lp with trim := 0 })).lp else { s.lp with trim := 0 }) ∧
      (∀ f, if (f == .lateLower && late) || (f == .shortPiece && s.seq.stand == .threading)
        then ((lateOrShort b.tag v).stickyMark f).map Mark.instant = some s.clock
        else (lateOrShort b.tag v).stickyMark f = s.stickyMark f) ∧
      (lateOrShort b.tag v).rep.lastAlarm = s.rep.lastAlarm ∧
      (lateOrShort b.tag v).rep.periodFrom = s.rep.periodFrom := by
    have hm : ∀ f, v.stickyMark f = s.stickyMark f := stickyMark_of_rep h7
    have hm' : ∀ f, (lowerLooper b.tag v).stickyMark f = s.stickyMark f := fun f => by
      rw [← hm f]; exact stickyMark_of_rep (by simp) f
    unfold lateOrShort
    rw [h1, hlast]
    cases hs : s.seq.stand <;> cases hl : s.atLast <;>
      simp [late, hs, hl, h4, h7, h8, hm, hm', hlow v h4] <;>
      (intro f; cases f <;> simp)
  obtain ⟨g1, g2, g3, g4⟩ := hcases
  rw [hv]
  refine ⟨?_, ?_, ?_, ?_, ?_, ?_, ?_, ?_⟩
  · simp [h2, htail]
  · simp [h2]
  · simp [h3]
  · simp [g1]
  · simp [Offers, h5, h6]
  · intro f; simpa using g2 f
  · simp [g3]
  · simp [g4]

end Sys2Proof.Machine
end

