-- ==== Sys2Proof/Laws/Tracking.lean ====
section
/-! SUPPORT. What the reports of a tracking expiry do to the state (R44), step by step, and the four steps together before a
load event is predicted. -/

namespace Sys2Proof.Machine

/-! ### The lists -/

/-- Marking the open windows keeps every kind, tag and distance. -/
def opened (w : Int) (m : Marker) : Marker :=
  { m with windowOpen := m.windowOpen || (m.kind == .head && decide (m.distance ≤ w)) }

theorem openMark_eq (w : Int) (m : Marker) :
    (if m.kind = .head ∧ m.distance ≤ w then { m with windowOpen := true } else m) = opened w m := by
  by_cases h : m.kind = .head ∧ m.distance ≤ w
  · simp [opened, h]
  · simp only [h, if_false, opened]
    have : (m.kind == .head && decide (m.distance ≤ w)) = false := by
      simpa [Bool.and_eq_false_iff, ← not_and_or] using h
    simp [this]

/-- The first marker of a kind and tag is found in the marked list as in the list before. -/
theorem find_opened (w : Int) (p : Marker → Bool) (hp : ∀ m, p (opened w m) = p m) (l : List Marker) :
    (l.map (opened w)).find? p = (l.find? p).map (opened w) := by
  induction l with
  | nil => rfl
  | cons m rest ih =>
    simp only [List.map_cons, List.find?_cons, hp]
    split <;> simp [ih]

theorem any_opened (o : Option Marker) (w x : Int) :
    ((o.map (opened w)).any fun m => decide (m.distance ≤ x)) = o.any fun m => decide (m.distance ≤ x) := by
  cases o <;> rfl

/-- What stays after both removals. -/
theorem stays_eq (w : Int) (l : List Marker) :
    (l.filter fun m => !pastWindow w .tail m).filter (fun m => !pastWindow w .head m) =
      l.filter fun m => decide (-w ≤ m.distance) := by
  rw [List.filter_filter]
  congr 1
  funext m
  by_cases h : m.distance < -w
  · have : ¬(-w ≤ m.distance) := by omega
    cases hk : m.kind <;> simp [pastWindow, h, this, hk]
  · have : -w ≤ m.distance := by omega
    simp [pastWindow, h, this]

/-- The removal of the overdue tails takes no head. -/
theorem missed_eq (w : Int) (l : List Marker) :
    (l.filter fun m => !pastWindow w .tail m).filter (pastWindow w .head) =
      l.filter fun m => m.kind == .head && decide (m.distance < -w) := by
  rw [List.filter_filter]
  congr 1
  funext m
  cases hk : m.kind <;> simp [pastWindow, hk]

/-! ### Steps 1 and 2: the advance, the clamp, the overdue tails -/

/-- The advance, the clamp and the removal of overdue tails. -/
theorem dropOverdue_spec (s : State) :
    let t := dropOverdue (advanceAll s)
    t.trk = { s.trk with markers := (movedMarkers s).filter fun m => !pastWindow s.window .tail m } ∧
    (∀ f, t.stickyMark f =
      if (f == .substituted && substitutesMarker s) || (f == .tailOverdue && tailOverdue s)
      then some ⟨s.clock, s.txq.nextOrder⟩ else s.stickyMark f) ∧
    t.rep.lastAlarm = s.rep.lastAlarm ∧ t.rep.periodFrom = s.rep.periodFrom := by
  intro t
  have hw : (advanceAll s).window = s.window := by simp [State.window]
  have hm : (advanceAll s).trk = { s.trk with markers := movedMarkers s } := by simp [advanceAll]
  refine ⟨?_, ?_, ?_, ?_⟩
  · simp [t, dropOverdue, hw, hm]
  · intro f
    have ha : (advanceAll s).stickyMark f =
        if f == .substituted && substitutesMarker s then some ⟨s.clock, s.txq.nextOrder⟩ else s.stickyMark f := by
      simp only [advanceAll, setStickyIf_stickyMark, setTrk_stickyMark, setTrk_clock, setTrk_txq]
      rw [Bool.and_comm]
    simp only [t, dropOverdue, setStickyIf_stickyMark, setTrk_stickyMark, setTrk_clock, setTrk_txq, ha, hw, hm,
      advanceAll_frame]
    cases f <;> simp [pastWindow]
  · simp [t, dropOverdue, advanceAll]
  · simp [t, dropOverdue, advanceAll]

/-! ### Step 3: the misses -/

/-- Misses while the stand bites set STRAY-HEAD, and change nothing else. -/
theorem misses_biting (l : List Marker) {s : State} (h : s.seq.stand.biting = true) :
    l.foldl reportMiss s = setStickyIf (!l.isEmpty) .strayHead s := by
  have one : ∀ (u : State) (m : Marker), u.seq.stand.biting = true → reportMiss u m = setSticky .strayHead u := by
    intro u m hu
    cases hs : u.seq.stand <;> simp_all [StandState.biting, reportMiss]
  have twice : ∀ u : State, setSticky .strayHead (setSticky .strayHead u) = setSticky .strayHead u := by
    intro u; simp [setSticky, State.setRep]
  induction l generalizing s with
  | nil => rfl
  | cons m rest ih =>
    rw [List.foldl_cons, one s m h, ih (by simpa using h)]
    cases rest
    · rfl
    · exact twice s

/-- Misses in HOLD or UNCONFIGURED do nothing. -/
theorem misses_idle (l : List Marker) {s : State} (h : s.seq.stand = .hold ∨ s.seq.stand = .unconfigured) :
    l.foldl reportMiss s = s := by
  induction l with
  | nil => rfl
  | cons m rest ih =>
    have : reportMiss s m = s := by rcases h with h | h <;> simp [reportMiss, h]
    rw [List.foldl_cons, this, ih]

/-- The hold part with the own drive started: the filter's timing starts afresh if the wire was released. -/
def driven (s : State) : HoldMonitor :=
  { s.hold with ownDrive := true, lineAt := if s.hold.others || s.hold.ownDrive then s.hold.lineAt else s.clock }

theorem setDrive_hold (s : State) : (setDrive true s).hold = driven s := by
  cases ho : s.hold.others <;> cases hd : s.hold.ownDrive <;> simp [setDrive, driven, HoldMonitor.line, ho, hd]

/-- Misses in EMPTY or AWAITING raise their alarms, front to back, and start the own drive. -/
theorem misses_waiting (l : List Marker) {s : State} (h : s.seq.stand = .empty ∨ s.seq.stand = .awaiting) :
    let t := l.foldl reportMiss s
    Offers s t (missAlarms s l) ∧ t.rep.lastAlarm = (if l = [] then s.rep.lastAlarm else some .threadMiss) ∧
    t.rep.periodFrom = s.rep.periodFrom ∧ (∀ f, t.stickyMark f = s.stickyMark f) ∧
    t.hold = (if l = [] then s.hold else driven s) := by
  induction l generalizing s with
  | nil => simp [Offers, missAlarms]
  | cons m rest ih =>
    intro t
    let u := setDrive true (raiseAlarm .threadMiss m.tag (missDetail m.distance) s)
    have hu : reportMiss s m = u := by rcases h with h | h <;> simp [reportMiss, h, u]
    have ht : t = rest.foldl reportMiss u := by simp only [t, List.foldl_cons, hu]
    have hl : u.rep.lastAlarm = some .threadMiss := by simp [u]
    have hd : u.hold = driven s := by
      simp only [u, setDrive_hold, driven, raiseAlarm_frame]
    obtain ⟨⟨h1, h2⟩, h3, h4, h5, h6⟩ := ih (s := u) (by simpa [u] using h)
    have hm : missAlarms u rest = rest.map fun x => .alarm .threadMiss (some .threadMiss) x.tag (missDetail x.distance) := by
      cases rest <;> simp [missAlarms, hl]
    obtain ⟨g1, g2⟩ := offers_congr (missAlarms u rest)
      (s := offer (.alarm .threadMiss s.rep.lastAlarm m.tag (missDetail m.distance)) s) (t := u)
      (by simp [u]) (by simp [u]) (by simp [u])
    refine ⟨⟨?_, ?_⟩, ?_, ?_, ?_, ?_⟩
    · rw [ht, h1, g1, hm]; simp [missAlarms]
    · rw [ht, h2, g2, hm]; simp [missAlarms]
    · rw [ht, h3, hl]; simp
    · rw [ht, h4]; simp [u]
    · intro f
      rw [ht, h5 f, stickyMark_of_rep (s := raiseAlarm .threadMiss m.tag (missDetail m.distance) s) (by simp [u])]
      exact raiseAlarm_stickyMark _ _ _ _ _
    · rw [ht, h6, hd]
      simp [driven, hd]

/-- The parts a miss does not touch. -/
theorem misses_frame (l : List Marker) (s : State) :
    let t := l.foldl reportMiss s
    t.pending = s.pending ∧ t.clock = s.clock ∧ t.draws = s.draws ∧ t.ldr = s.ldr ∧ t.seq = s.seq ∧ t.trk = s.trk ∧
    t.lp = s.lp ∧ t.cas = s.cas ∧ t.store = s.store ∧ t.sens = s.sens ∧ t.link = s.link := by
  induction l generalizing s with
  | nil => simp
  | cons m rest ih => simpa using ih (reportMiss s m)

@[simp] theorem dropMissed_frame (s : State) :
    (dropMissed s).pending = s.pending ∧ (dropMissed s).clock = s.clock ∧ (dropMissed s).draws = s.draws ∧
    (dropMissed s).ldr = s.ldr ∧ (dropMissed s).lp = s.lp ∧ (dropMissed s).cas = s.cas ∧
    (dropMissed s).store = s.store ∧ (dropMissed s).sens = s.sens ∧ (dropMissed s).link = s.link := by
  unfold dropMissed
  dsimp only
  split <;> simp [misses_frame]

/-! ### Steps 1 to 4 -/

/-- The stand state after steps 1 to 4 of an expiry (R6, R17). -/
def standAfter (s : State) : StandState :=
  match s.seq.stand with
  | .empty => if nearHead s then .awaiting else .empty
  | .awaiting => if nearHead s ∨ missedHeads s = [] then .awaiting else .empty
  | .coupled => if leadsTail s then .tailing else .coupled
  | .threading => .threading
  | .tailing => .tailing
  | .hold => .hold
  | .unconfigured => .unconfigured

/-- A head is missed while the stand waits for one (R22). -/
def missesHead (s : State) : Bool :=
  (s.seq.stand == .empty || s.seq.stand == .awaiting) && !(missedHeads s).isEmpty

/-- The first two reports: the overdue tails and the missed heads. -/
theorem dropMissed_spec (s : State) :
    let t := dropMissed (dropOverdue (advanceAll s))
    t.trk = { s.trk with markers := leftMarkers s } ∧
    t.seq = { s.seq with
      stand := if s.seq.stand = .awaiting ∧ nearHead s = false ∧ missedHeads s ≠ [] then .empty else s.seq.stand } ∧
    (∀ f, t.stickyMark f =
      if (f == .substituted && substitutesMarker s) || (f == .tailOverdue && tailOverdue s) ||
        (f == .strayHead && s.seq.stand.biting && !(missedHeads s).isEmpty)
      then some ⟨s.clock, s.txq.nextOrder⟩ else s.stickyMark f) ∧
    Offers s t (if missesHead s then missAlarms s (missedHeads s) else []) ∧
    t.rep.lastAlarm = (if missesHead s then some .threadMiss else s.rep.lastAlarm) ∧
    t.rep.periodFrom = s.rep.periodFrom ∧
    t.hold = if missesHead s then driven s else s.hold := by
  intro t
  obtain ⟨d1, d2, d3, d4⟩ := dropOverdue_spec s
  dsimp only at d1 d2 d3 d4
  have hw : (dropOverdue (advanceAll s)).window = s.window := by simp [State.window]
  have hleft : (dropOverdue (advanceAll s)).trk.markers.filter (fun m => !pastWindow s.window .head m) = leftMarkers s := by
    rw [d1]; exact stays_eq _ _
  have hmiss : (dropOverdue (advanceAll s)).trk.markers.filter (pastWindow s.window .head) = missedHeads s := by
    rw [d1]; exact missed_eq _ _
  -- the state in which the misses are reported
  let v := (dropOverdue (advanceAll s)).setTrk
    { (dropOverdue (advanceAll s)).trk with markers := leftMarkers s }
  have ht : t = if (missedHeads s).isEmpty then (missedHeads s).foldl reportMiss v
      else afterMiss ((missedHeads s).foldl reportMiss v) := by
    simp only [t, dropMissed, hw, hleft, hmiss, v]
  have vseq : v.seq = s.seq := by simp [v]
  have vtrk : v.trk = { s.trk with markers := leftMarkers s } := by simp [v, d1]
  have vstick : ∀ f, v.stickyMark f = _ := fun f => (stickyMark_of_rep (s := dropOverdue (advanceAll s)) rfl f).trans (d2 f)
  have vlast : v.rep.lastAlarm = s.rep.lastAlarm := d3
  have vper : v.rep.periodFrom = s.rep.periodFrom := d4
  have vtxq : v.txq = s.txq := by simp [v]
  have vec : v.ec = s.ec := by simp [v]
  have vclock : v.clock = s.clock := by simp [v]
  have vhold : v.hold = s.hold := by simp [v]
  have halarms : missAlarms v (missedHeads s) = missAlarms s (missedHeads s) := by
    cases missedHeads s <;> simp [missAlarms, vlast]
  obtain ⟨-, -, -, f3, f1, f2, -⟩ := misses_frame (missedHeads s) v
  have hnear : ((missedHeads s).foldl reportMiss v).headInWindow = nearHead s := by
    simp only [State.headInWindow, State.window, frontHead, f2, f3, vtrk]
    have : v.ldr = s.ldr := by simp [v]
    rw [this]
    show _ = Option.any _ _
    cases (leftMarkers s).find? fun m => m.kind == .head <;> rfl
  have after : ∀ u : State, (afterMiss u).rep = u.rep ∧ (afterMiss u).txq = u.txq ∧ (afterMiss u).ec = u.ec ∧
      (afterMiss u).hold = u.hold ∧ (afterMiss u).trk = u.trk := by intro u; simp
  have key : ∀ u : State, u = (missedHeads s).foldl reportMiss v →
      t.rep = u.rep ∧ t.txq = u.txq ∧ t.ec = u.ec ∧ t.hold = u.hold ∧ t.trk = u.trk := by
    intro u hu
    rw [ht, ← hu]
    split
    · exact ⟨rfl, rfl, rfl, rfl, rfl⟩
    · exact after u
  obtain ⟨k1, k2, k3, k4, k5⟩ := key _ rfl
  refine ⟨by rw [k5, f2, vtrk], ?_, ?_⟩
  · rw [ht]
    by_cases hm : missedHeads s = []
    · simp [hm, vseq]
    · rw [if_neg (by simpa using hm), afterMiss, hnear, f1, vseq]
      by_cases hc : s.seq.stand = .awaiting ∧ nearHead s = false
      · rw [if_pos hc, if_pos ⟨hc.1, hc.2, hm⟩]
        rfl
      · rw [if_neg hc, if_neg fun h => hc ⟨h.1, h.2.1⟩, f1, vseq]
  · -- by the stand state at the misses
    have hk : t.stickyMark = ((missedHeads s).foldl reportMiss v).stickyMark := by
      funext f; exact stickyMark_of_rep k1 f
    have offers : ∀ fs : List TxFrame, Offers v ((missedHeads s).foldl reportMiss v) fs → Offers s t fs := by
      rintro fs ⟨o1, o2⟩
      obtain ⟨c1, c2⟩ := offers_congr fs vtxq vec vclock
      exact ⟨by rw [k2, o1, c1], by rw [k3, o2, c2]⟩
    have none : ∀ u : State, u = (missedHeads s).foldl reportMiss v → u.txq = v.txq → u.ec = v.ec → Offers s t [] := by
      intro u hu h1 h2
      exact offers [] (by rw [← hu]; exact ⟨h1, h2⟩)
    cases hs : s.seq.stand
    case empty | awaiting =>
      obtain ⟨w1, w2, w3, w4, w5⟩ := misses_waiting (missedHeads s) (s := v) (by rw [vseq, hs]; simp)
      rw [halarms] at w1
      refine ⟨fun f => ?_, ?_, ?_, ?_, ?_⟩
      · rw [hk, w4, vstick]; simp [StandState.biting]
      · cases hm : missedHeads s with
        | nil => simpa [missesHead, hs, hm, missAlarms] using offers _ w1
        | cons m rest => simpa [missesHead, hs, hm] using offers _ w1
      · rw [k1, w2, vlast]; cases hm : missedHeads s <;> simp [missesHead, hs, hm]
      · rw [k1, w3, vper]
      · rw [k4, w5, vhold]
        cases hm : missedHeads s <;> simp [missesHead, hs, hm, driven, vhold, vclock]
    case threading | coupled | tailing =>
      have hb := misses_biting (missedHeads s) (s := v) (by rw [vseq, hs]; rfl)
      refine ⟨fun f => ?_, ?_, ?_, ?_, ?_⟩
      · rw [hk, hb, setStickyIf_stickyMark, vstick, vclock, vtxq]
        cases f <;> simp [StandState.biting]
      · simpa [missesHead, hs] using none _ rfl (by rw [hb]; simp) (by rw [hb]; simp)
      · rw [k1, hb]; simp [missesHead, hs, vlast]
      · rw [k1, hb]; simp [vper]
      · rw [k4, hb]; simp [missesHead, hs, vhold]
    case hold | unconfigured =>
      have hb := misses_idle (missedHeads s) (s := v) (by rw [vseq, hs]; simp)
      refine ⟨fun f => ?_, ?_, ?_, ?_, ?_⟩
      · rw [hk, hb, vstick]; simp [StandState.biting]
      · simpa [missesHead, hs] using none _ rfl (by rw [hb]) (by rw [hb])
      · rw [k1, hb]; simp [missesHead, hs, vlast]
      · rw [k1, hb, vper]
      · rw [k4, hb]; simp [missesHead, hs, vhold]

/-- The windows and the tail lead, the two reports that follow. -/
theorem leadTail_spec (s : State) :
    let t := leadTail (openWindows (dropMissed (dropOverdue (advanceAll s))))
    t.trk = { s.trk with markers := (leftMarkers s).map (opened s.window) } ∧
    t.seq = { s.seq with stand := standAfter s } ∧
    t.lp = (if leadsTail s then loweredLooper s s.biteTag else s.lp) ∧
    t.rep = (dropMissed (dropOverdue (advanceAll s))).rep := by
  intro t
  obtain ⟨m1, m2, -⟩ := dropMissed_spec s
  dsimp only at m1 m2
  generalize hd : dropMissed (dropOverdue (advanceAll s)) = d at m1 m2
  have dl : d.ldr = s.ldr ∧ d.lp = s.lp ∧ d.store = s.store := by simp [← hd]
  have dw : d.window = s.window := by simp [State.window, dl]
  let o := openWindows d
  have otrk : o.trk = { s.trk with markers := (leftMarkers s).map (opened s.window) } := by
    have hf : (fun m : Marker => if m.kind = .head ∧ m.distance ≤ d.window then { m with windowOpen := true } else m) =
        opened s.window := by
      funext m; rw [dw]; exact openMark_eq _ m
    simp only [o, openWindows, hf]
    split <;> simp [m1]
  have hnear : ∀ u : State, u.trk.markers = (leftMarkers s).map (opened s.window) → u.ldr = s.ldr →
      u.headInWindow = nearHead s := by
    intro u h1 h2
    simp only [State.headInWindow, State.window, frontHead, h1, h2]
    rw [find_opened _ _ (fun _ => rfl)]
    show _ = Option.any _ _
    cases (leftMarkers s).find? fun m => m.kind == .head <;> rfl
  have oseq : o.seq = { s.seq with
      stand := if leadsTail s then s.seq.stand else standAfter s } := by
    have hf : (fun m : Marker => if m.kind = .head ∧ m.distance ≤ d.window then { m with windowOpen := true } else m) =
        opened s.window := by
      funext m; rw [dw]; exact openMark_eq _ m
    have hn := hnear (d.setTrk { d.trk with markers := d.trk.markers.map (opened s.window) }) (by simp [m1]) (by simp [dl])
    simp only [o, openWindows, hf, hn, setTrk_seq, m2]
    cases hs : s.seq.stand <;> cases hh : nearHead s <;> simp [standAfter, hs, hh, leadsTail, m2]
    all_goals split <;> simp_all
  have obite : o.seq.bite = s.seq.bite := by rw [oseq]
  have ol : o.ldr = s.ldr ∧ o.lp = s.lp ∧ o.store = s.store := by simp [o, dl]
  have hlook : ∀ x, o.lookup x = s.lookup x := lookup_congr ol.1 ol.2.2
  have hlast : o.atLast = s.atLast := by simp [State.atLast, State.position, ol.1]
  have htag : o.biteTag = s.biteTag := by simp [State.biteTag, obite]
  have hlead : (o.seq.stand = .coupled ∧ o.atLast = false ∧ o.tailLead = true) ↔ leadsTail s = true := by
    have hstand : o.seq.stand = .coupled ↔ s.seq.stand = .coupled := by
      rw [oseq]
      cases hs : s.seq.stand <;> simp [leadsTail, standAfter, hs] <;> split <;> simp_all
    rw [hstand, hlast]
    simp only [leadsTail, Bool.and_eq_true, beq_iff_eq, Bool.not_eq_true']
    rw [and_assoc]
    refine and_congr_right fun _ => and_congr_right fun _ => ?_
    simp only [State.tailLead, State.biteSchedule, hlook, htag, obite, otrk, tailOf]
    cases hb : s.seq.bite with
    | none => simp
    | some b =>
      simp only [Option.any_some]
      rw [find_opened _ _ (fun _ => rfl)]
      have : s.biteTag = b.tag := by simp [State.biteTag, hb]
      rw [this]
      cases (leftMarkers s).find? fun m => m.kind == .tail && m.tag == b.tag <;> simp [opened]
  have ht : t = leadTail o := by simp only [t, hd, o]
  refine ⟨by rw [ht, (leadTail_frame o).2.2.2.2.1, otrk], ?_, ?_, ?_⟩
  · rw [ht]
    unfold leadTail
    by_cases hl : leadsTail s = true
    · rw [if_pos (hlead.2 hl)]
      have hs : s.seq.stand = .coupled := by
        have := hl; simp only [leadsTail, Bool.and_eq_true, beq_iff_eq] at this; exact this.1.1
      simp only [setSeq_seq, lowerLooper_frame, oseq]
      simp [standAfter, hs, hl]
    · rw [if_neg fun h => hl (hlead.1 h), oseq]
      simp [hl]
  · rw [ht]
    unfold leadTail
    by_cases hl : leadsTail s = true
    · rw [if_pos (hlead.2 hl), if_pos hl, htag]
      simp only [setSeq_lp]
      unfold lowerLooper startLowering loweredLooper
      rw [ol.2.1]
      cases hs : s.lp.state <;> simp [ol]
    · rw [if_neg fun h => hl (hlead.1 h), if_neg hl, ol.2.1]
  · rw [ht]; simp [o]

/-- Steps 1 to 4 of an expiry together, before a load event is predicted (R41 to R47). -/
theorem reports_spec (s : State) :
    let t := leadTail (openWindows (dropMissed (dropOverdue (advanceAll s))))
    t.trk = { s.trk with markers := (leftMarkers s).map (opened s.window) } ∧
    t.seq = { s.seq with stand := standAfter s } ∧
    t.lp = (if leadsTail s then loweredLooper s s.biteTag else s.lp) ∧
    (∀ f, t.stickyMark f =
      if (f == .substituted && substitutesMarker s) || (f == .tailOverdue && tailOverdue s) ||
        (f == .strayHead && s.seq.stand.biting && !(missedHeads s).isEmpty)
      then some ⟨s.clock, s.txq.nextOrder⟩ else s.stickyMark f) ∧
    Offers s t (if missesHead s then missAlarms s (missedHeads s) else []) ∧
    t.rep.lastAlarm = (if missesHead s then some .threadMiss else s.rep.lastAlarm) ∧
    t.rep.periodFrom = s.rep.periodFrom ∧
    t.hold = if missesHead s then driven s else s.hold := by
  intro t
  obtain ⟨l1, l2, l3, l4⟩ := leadTail_spec s
  obtain ⟨-, -, m3, ⟨m4, m4'⟩, m5, m6, m7⟩ := dropMissed_spec s
  refine ⟨l1, l2, l3, fun f => (stickyMark_of_rep l4 f).trans (m3 f), ⟨?_, ?_⟩, ?_, ?_, ?_⟩
  · rw [← m4]; simp [t]
  · rw [← m4']; simp [t]
  · rw [← m5]; exact congrArg _ l4
  · rw [← m6]; exact congrArg _ l4
  · rw [← m7]; simp [t]

/-- Where no crossing is taken, step 5 does nothing (R49, R117). -/
theorem predict_nothing {s : State} (hp : PredictsNothing s) :
    predict (leadTail (openWindows (dropMissed (dropOverdue (advanceAll s))))) =
      leadTail (openWindows (dropMissed (dropOverdue (advanceAll s)))) := by
  obtain ⟨h1, h2, -⟩ := leadTail_spec s
  dsimp only at h1 h2
  have h3 : (leadTail (openWindows (dropMissed (dropOverdue (advanceAll s))))).sens = s.sens := by simp
  generalize leadTail (openWindows (dropMissed (dropOverdue (advanceAll s)))) = t at h1 h2 h3
  unfold predict
  cases hf : s.sens.forceStale with
  | false => simp [h3, hf]
  | true =>
    obtain ⟨noHead, noTail⟩ := hp hf
    have head : t.headCrossing = true → s.seq.stand = .empty ∨ s.seq.stand = .awaiting → False := by
      intro hc hs
      simp only [State.headCrossing, frontHead, h1] at hc
      rw [find_opened _ _ (fun _ => rfl)] at hc
      cases hm : (leftMarkers s).find? fun m => m.kind == .head with
      | none => rw [hm] at hc; simp at hc
      | some m =>
        rw [hm] at hc
        exact noHead m ⟨hs, hm, of_decide_eq_true hc⟩
    have tail : t.tailCrossing = true → s.seq.stand.biting = true → False := by
      intro hc hs
      simp only [State.tailCrossing, tailOf, h1, h2] at hc
      cases hb : s.seq.bite with
      | none => rw [hb] at hc; simp at hc
      | some b =>
        rw [hb] at hc
        simp only at hc
        rw [find_opened _ _ (fun _ => rfl)] at hc
        cases hm : (leftMarkers s).find? fun m => m.kind == .tail && m.tag == b.tag with
        | none => rw [hm] at hc; simp at hc
        | some m =>
          rw [hm] at hc
          exact noTail b m ⟨hs, hb, hm, of_decide_eq_true hc⟩
    have hstand : t.seq.stand = standAfter s := by rw [h2]
    have wait : standAfter s = .awaiting → t.headCrossing = false := by
      intro hs
      rw [Bool.eq_false_iff]
      intro hc
      refine head hc ?_
      cases h : s.seq.stand <;> simp [standAfter, h] at hs ⊢
      split at hs <;> cases hs
    have bites : (standAfter s).biting = true → t.tailCrossing = false := by
      intro hs
      rw [Bool.eq_false_iff]
      intro hc
      refine tail hc ?_
      cases h : s.seq.stand <;> simp only [standAfter, h] at hs ⊢ <;> first | rfl | (split at hs <;> cases hs) | cases hs
    rw [h3, hf, if_pos rfl, hstand]
    cases h : standAfter s <;> simp_all [StandState.biting]

/-- An expiry that predicts no load event is its steps 1 to 4. -/
theorem execTrackingExpiry_reports {s : State} (now : Instant) (h : s.seq.stand ≠ .unconfigured) (hp : PredictsNothing s) :
    execTrackingExpiry now s =
      .next (leadTail (openWindows (dropMissed (dropOverdue (advanceAll (s.setClock now)))))) := by
  have hp' : PredictsNothing (s.setClock now) := hp
  simp only [execTrackingExpiry, setClock_seq, h, if_false, predict_nothing hp']

end Sys2Proof.Machine
end

