-- ==== Sys2Proof/WellFormed.lean ====
section
/-! DEFINITION. Which operands a command can have on the wire. The meanings are total: they do not ask for
well-formedness, and a command outside it is taken by the same rules. -/

namespace Sys2Proof

/-- The operand bounds that the spec's layouts give.
- an image has 101 bytes (R178: the items' lengths summed)
- the line cannot be idle before 10 recessive bits (R145), and no run of them in a frame is longer than 9 (R143)
- a contest is lost in the eight bits after the start bit (R147)
- a frame is given at least to its length field and at most to its reject slot, 17 to 110 bits after the start bit (R145)
- a bit error falls between the start bit and the last marker bit, at most 37 + 9 × 8 bits in (R145, R148)
- a receiver finds an error at the marker bit of one of at most 12 octets, or at the last bit of an octet before it (R143, R144),
  and reads two bits of a reject slot (R149)
- a rejected frame's slot holds a dominant bit (R150) -/
def Instr.wellFormed : Instr → Bool
  | .configReadDone _ image => image.length == 101
  | .lineIdle _ quiet => 10 ≤ quiet.bits && quiet.before ≤ 9
  | .arbitrationLost _ lost =>
    2 ≤ lost.bits && lost.bits ≤ 9 && 18 ≤ lost.bits + lost.rest.length && lost.bits + lost.rest.length ≤ 111
  | .frameStart start => 17 ≤ start.frame.length && start.frame.length ≤ 110
  | .bitError _ bits => 1 ≤ bits && bits ≤ 109
  | .receiveError _ read =>
    (read.bits.length % 9 == 0 || read.bits.length % 9 == 8) && 8 ≤ read.bits.length && read.bits.length ≤ 108 && read.past ≤ read.bits.length + 2
  | .frameRejected fin => !(fin.slot.first && fin.slot.second)
  | .pinReset .. | .resetRelease .. | .configReadTimeout .. | .forceSample .. | .forceStale ..
  | .speedFeedbackSample .. | .speedFeedbackStale .. | .angleSample .. | .angleStale .. | .hotMetalEdge ..
  | .trackingExpiry .. | .looperPeriodExpiry .. | .raiseTimeout .. | .lowerTimeout .. | .speedPeriodExpiry ..
  | .viewStale .. | .impactEnd .. | .cascadeFramePeriod .. | .statusFramePeriod .. | .noticeAgeTick ..
  | .holdLineActive .. | .holdLineReleased .. | .releaseQualified .. | .upstreamHeadOn .. | .downstreamHeadOn ..
  | .upstreamTailOff .. | .downstreamTailOff .. | .cascadeDelivered .. | .alarmReceived .. | .statusReceived ..
  | .setupFields .. | .setupClose .. | .setupCancel .. | .setupClear .. | .release .. | .restart .. | .drill ..
  | .malformedFrame .. | .contestStart .. | .attemptFailed .. | .attemptSucceeded ..
  | .joiningEnd .. | .offLinkRecovery .. | .hotMetalReading .. | .holdLineChange ..
  | .frameIgnored .. | .strayFrame .. | .offLinkIdleSpan .. => true

end Sys2Proof
end

