-- ==== Sys2Proof/Tests/Slice0.lean ====
section
/-! SUPPORT. Small tests: the refusals of `Instr.wellFormed`, one-step cases with the numbers of the manual's own worked
cases, and for every statement with hypotheses a witness: a concrete state and operands that meet them together. -/

namespace Sys2Proof.Tests
open Sys2Proof.Machine

/-- A frame in error, whose reject slot the rest of the line leaves recessive. -/
def readOf (bits : List Bool) (past : Nat) : ReadFrame := { bits := bits, slot := ⟨true, true⟩, past := past }

/-! ### Well-formedness: an ill-formed term for each check is refused -/

theorem test_wf_image_length : (Instr.configReadDone 0 (List.replicate 100 0)).wellFormed = false := by decide
theorem test_wf_image_length_ok : (Instr.configReadDone 0 (List.replicate 101 0)).wellFormed = true := by decide
theorem test_wf_idle_bits :
    (Instr.lineIdle 0 ⟨9, 0⟩).wellFormed = false ∧ (Instr.lineIdle 0 ⟨10, 10⟩).wellFormed = false ∧
    (Instr.lineIdle 0 ⟨10, 3⟩).wellFormed = true := by decide
theorem test_wf_lost_bits :
    (let rest := List.replicate 20 true
     (Instr.arbitrationLost 0 ⟨1, rest⟩).wellFormed = false ∧ (Instr.arbitrationLost 0 ⟨10, rest⟩).wellFormed = false ∧
     (Instr.arbitrationLost 0 ⟨9, rest.take 8⟩).wellFormed = false ∧ (Instr.arbitrationLost 0 ⟨9, rest⟩).wellFormed = true) ∧
    (Instr.arbitrationLost 0 ⟨9, List.replicate 103 true⟩).wellFormed = false := by decide
theorem test_wf_frame_start :
    (Instr.frameStart ⟨0, List.replicate 16 true⟩).wellFormed = false ∧
    (Instr.frameStart ⟨0, List.replicate 111 true⟩).wellFormed = false ∧
    (Instr.frameStart ⟨0, List.replicate 110 true⟩).wellFormed = true := by decide
theorem test_wf_error_bits :
    (Instr.bitError 0 0).wellFormed = false ∧ (Instr.bitError 0 110).wellFormed = false ∧
    (Instr.bitError 0 109).wellFormed = true := by decide
theorem test_wf_received_bits :
    (Instr.receiveError 0 (readOf (List.replicate 16 true) 0)).wellFormed = false ∧
    (Instr.receiveError 0 (readOf (List.replicate 35 true) 0)).wellFormed = true ∧
    (Instr.receiveError 0 (readOf [] 0)).wellFormed = false ∧
    (Instr.receiveError 0 (readOf (List.replicate 117 true) 0)).wellFormed = false ∧
    (Instr.receiveError 0 (readOf (List.replicate 108 true) 111)).wellFormed = false ∧
    (Instr.receiveError 0 (readOf (List.replicate 108 true) 110)).wellFormed = true := by decide

theorem test_wf_rejected_slot :
    (Instr.frameRejected ⟨0, ⟨true, true⟩⟩).wellFormed = false ∧
    (Instr.frameRejected ⟨0, ⟨true, false⟩⟩).wellFormed = true := by decide

/-! ### Arithmetic and frames, from the manual's tables -/

/-- The table of R74. -/
theorem test_composition :
    compose (-1800) 1400 = -403 ∧ compose 10000 10000 = 20100 ∧ compose (-10000) (-10000) = -19900 ∧
    compose 500 1000 = 1501 ∧ compose (-500) 1000 = 499 := by decide

/-- The table of R112, at the edges of its bands. -/
theorem test_samples_needed :
    samplesNeeded 1999 = 32 ∧ samplesNeeded 2000 = 16 ∧ samplesNeeded 4999 = 16 ∧ samplesNeeded 5000 = 8 ∧
    samplesNeeded 9999 = 8 ∧ samplesNeeded 10000 = 4 := by decide

/-- 8.8: 4,196 µs give the age 420; 2.10: 4,120 µs give 412. -/
theorem test_age_rounds : noticeAge 4196 0 = 420 ∧ noticeAge 4120 0 = 412 := by decide

/-- 2.10: a miss at −501,632 µm has the detail −502. -/
theorem test_miss_detail : (missDetail (-501632)).toInt = -502 := by decide

/-- The table of R145. -/
theorem test_frame_lengths :
    [0, 1, 2, 3, 4, 6, 7, 8].map frameBits = [46, 55, 64, 73, 82, 100, 109, 118] ∧
    [0, 1, 2, 3, 4, 6, 7, 8].map captureBits = [39, 48, 57, 66, 75, 93, 102, 111] := by decide

/-- R154: the ALARM row is well formed; with another length, another precedence, or code 13, a frame is malformed. -/
theorem test_malformed :
    malformed 0 4 4 = false ∧ malformed 0 4 5 = true ∧ malformed 1 4 4 = true ∧ malformed 3 13 1 = true ∧
    malformed 0 0 0 = true := by decide

/-! ### Small stations -/

/-- Schedule 41 of 4.10 and 2.10, with the entry figures of 2.11. -/
def values : Values :=
  { vTop := 10000, h := #v[32000, 20000, 13000, 8500, 5500, 4600, 3400, 2500, 2000],
    f := #v[50, 50, 50, 40, 45, 50, 60, 50], theta := #v[1800, 1800, 1800, 2000, 1800, 1800, 1800],
    kp := 8, ki := 2, boost := 15000, impactTime := 80, lLow := 2500 }

/-- A configured station of a seven-stand train, by position code (position less 1). -/
def station (code : BitVec 3) : State :=
  { State.reset with
    ldr := { phase := .running, releasedAt := 0, positionCode := code, rateCode := 3, commissioning := true,
             image := { Image.zero with
               n := 7, dUp := 5500, dEntry := 2000, vMin := 300, vMax := 20000, fOff := 1000, fOn := 2500,
               thetaRest := 300, band := 50, rateUp := 25, rateDown := 40, raiseTimeout := 100, lowerTimeout := 100,
               tMax := 20000, iMax := 5000, window := 3, accept := defaultAccept (code.toNat + 1) 7,
               defaults := values } }
    seq := { stand := .empty, bite := none }
    lp := { State.reset.lp with command := 300 }
    store := { staging := values, table := [] }
    sens := { State.reset.sens with forceStale := false, angleStale := false, speedStale := false, hotLevel := some false }
    ec := { State.reset.ec with link := .active } }

def bite41 : Bite :=
  { tag := 41, unannounced := false, early := false, substituted := true, predicted := false, partner := none,
    impact := some { elapsed := 3, boost := 15000 } }

def record (tag : Tag) (state : RecordState) : Record := { tag := tag, values := values, state := state, base := 4633 }

/-- The station with a stand state and a bite. -/
def biting (code : BitVec 3) (stand : StandState) (b : Bite) : State :=
  { station code with seq := { stand := stand, bite := some b } }

/-- The station with markers. -/
def tracking (s : State) (l : List Marker) : State := { s with trk := { s.trk with markers := l } }

def head (tag : Tag) (distance : Int) : Marker := { kind := .head, tag := tag, distance := distance, windowOpen := false }
def tail (tag : Tag) (distance : Int) : Marker := { kind := .tail, tag := tag, distance := distance, windowOpen := false }

/-- The station one sample before its run qualifies at 12,000 mm/s. -/
def nearly (s : State) (loaded : Bool) : State :=
  { s with sens := { s.sens with loaded := loaded, run := some { length := 3, first := 7000 }, speed := 12000 } }

def slotOf (f : TxFrame) (sent : Bool) : Slot :=
  { frame := f, queuedAt := 10, order := 1, attempts := 0, inTransmission := sent, cleared := false, saturated := false }

/-- The station with one frame in slot 0, sending it or not, on an idle line. -/
def queued (f : TxFrame) (sent : Bool) : State :=
  { station 4 with
    txq := { slots := #v[some (slotOf f sent), none, none, none], nextOrder := 2 }
    link := { State.reset.link with
      idle := true
      attempt := if sent then some { slot := 0, bits := 0, bitsAt := 0, age := 0, check := 0, flawed := false, breaking := false }
                 else none } }

/-- What a step answers, if it answers a next state of which p holds. -/
def After (c : Instr) (s : State) (p : State → Bool) : Prop :=
  (match exec c s with | .next t => p t | .fault _ | .refused _ => false) = true

/-! ### One step, with the numbers of the worked cases -/

/-- 2.10: HEAD-ON 41 with age 412 at station 5 places its marker at 5,479,840 µm. -/
theorem test_head_on_back_dated :
    After (.upstreamHeadOn ⟨9000, true⟩ 4 41 412)
      { station 4 with cas := { State.reset.cas with upView := { View.neverHeard with speed := 4631 } } }
      (fun t => t.trk.markers == [head 41 5479840]) := by
  unfold After; decide

/-- 2.11: at 4,700 mm/s TAIL 41 moves 4,108 µm in an expiry. -/
theorem test_tail_rate : markerRate { station 4 with sens := { (station 4).sens with speed := 4700 } } .tail 41 = 4108 := by
  decide

/-- 4.10: the base of record 41 at station 4 is 4,633 mm/s. -/
theorem test_base_speed : baseSpeed values 4 7 = 4633 := by decide

/-- 4.10 and 3.8: with θ_ref 2,000, θ_meas 2,150 and I −300 the trim is −1,800 and I −600. -/
theorem test_tension_trim :
    After (.looperPeriodExpiry 9000)
      { biting 3 .coupled bite41 with
        lp := { state := .tension, command := 2000, integral := -300, trim := 0 }
        sens := { (station 3).sens with angle := some 2150 } }
      (fun t => t.lp.trim == -1800 && t.lp.integral == -600) := by
  unfold After; decide

/-- R97: h[7] above h[6] refuses a close; R94 refuses an h outside its range. -/
theorem test_close_refused_out_of_order :
    After (.setupClose ⟨9000, true⟩ 24 41) { station 3 with store := { staging := { values with h := values.h.set 7 3500 }, table := [] } }
      (fun t => t.store.table == [] && t.stickySet .closeRefused && !t.stickySet .scheduleFull) := by
  unfold After; decide

/-- R94: V_top 26,000 is clamped to 25,000; an h of 499 is refused. -/
theorem test_fields_clamp_and_refuse :
    After (.setupFields ⟨9000, true⟩ 24 ⟨0x01, 26000⟩ ⟨0x10, 499⟩) (station 3)
      (fun t => t.store.staging.vTop == 25000 && t.store.staging.hAt 0 == 32000 &&
        t.stickySet .fieldAdjusted && t.stickySet .fieldRefused) := by
  unfold After; decide

/-- R161: an ALARM offered to a full queue displaces the STATUS frame, and the dropped count rises. -/
theorem test_alarm_displaces_status :
    (let s := { station 4 with
        txq := { slots := #v[some (slotOf (.headOn 1 0) false), some (slotOf (.status (Vector.replicate 8 0)) false),
                             some (slotOf (.tailOff 1 0) false), some (slotOf (.headOn 2 0) false)], nextOrder := 9 } }
     let t := offer (.alarm .threadMiss none 0 0) s
     t.ec.dropped == 1 && (t.txq.slots[1].map fun x => x.frame.kind) == some .alarm) = true := by
  decide

/-- R173: the failed attempt that takes TEC from 192 to 200 makes the station OFF-LINK. -/
theorem test_off_link_at_200 :
    After (.attemptFailed 9000)
      { queued (.headOn 1 0) true with ec := { State.reset.ec with link := .muted, txErrors := 192 } }
      (fun t => t.ec.link == .offLink && t.ec.txErrors == 200 && t.txq.slots == freeSlots) := by
  unfold After; decide

/-! ### Witnesses: the hypotheses of each statement met together, each clause at an edge of its range -/

/-- A lawful state with a command waiting. -/
def about (c : Instr) (s : State) : State := { s with pending := [c] }

def coupled5 : State := biting 4 .coupled { bite41 with partner := some 41 }
def unannounced5 : State := biting 4 .threading { bite41 with tag := 0, unannounced := true }
def held5 : State := { station 4 with
  seq := { stand := .hold, bite := none }, hold := { State.reset.hold with filtered := true, timer := none, others := true } }
def unconfigured5 : State := { station 4 with
  seq := { stand := .unconfigured, bite := none }, ldr := { (station 4).ldr with image := Image.zero }
  cas := { State.reset.cas with reference := 0 } }
def reading5 : State := { unconfigured5 with ldr := { unconfigured5.ldr with phase := .reading } }

theorem witness_StepTakesFrontCommand :
    (about (.viewStale 5) (station 4)).pending = .viewStale 5 :: [] ∧ (station 4).pending = [] := by decide

theorem witness_MarkersStayOrdered :
    (let s := about (.trackingExpiry 1000) (tracking (station 4) [tail 41 1200000, head 42 1203000])
     MarkersLawful s.trk.markers) ∧
    ∃ t, step (about (.trackingExpiry 1000) (tracking (station 4) [tail 41 1200000, head 42 1203000])) = .next t :=
  ⟨by decide, _, rfl⟩

theorem witness_HandOffStaysLawful :
    HandOffLawful (about (.downstreamHeadOn ⟨5, true⟩ 6 41 3) { coupled5 with store := { staging := values, table := [record 41 .entered] } }) ∧
    ∃ t, step (about (.downstreamHeadOn ⟨5, true⟩ 6 41 3) { coupled5 with store := { staging := values, table := [record 41 .entered] } })
      = .next t :=
  ⟨by decide, _, rfl⟩

theorem witness_LooperStaysLawful :
    (let s := about (.looperPeriodExpiry 5) { coupled5 with lp := { state := .tension, command := 1800, integral := 5000, trim := -20000 } }
     LooperLawful s ∧ TrimBounded s) ∧
    ∃ t, step (about (.looperPeriodExpiry 5)
      { coupled5 with lp := { state := .tension, command := 1800, integral := 5000, trim := -20000 } }) = .next t :=
  ⟨by decide, _, rfl⟩

theorem witness_CascadeStaysBounded :
    (let s := about (.speedPeriodExpiry 5) { coupled5 with cas := { State.reset.cas with factor := -200000, reference := 20000 } }
     FactorBounded s ∧ ReferenceLawful s) ∧
    ∃ t, step (about (.speedPeriodExpiry 5)
      { coupled5 with cas := { State.reset.cas with factor := -200000, reference := 20000 } }) = .next t :=
  ⟨by decide, _, rfl⟩

theorem witness_HoldStaysLawful :
    HoldLawful (about (.holdLineReleased 1000) held5) ∧ ∃ t, step (about (.holdLineReleased 1000) held5) = .next t :=
  ⟨by decide, _, rfl⟩

theorem witness_SensingStaysLawful :
    SensingLawful (about (.forceSample 5 2500) (nearly (station 4) false)) ∧
    ∃ t, step (about (.forceSample 5 2500) (nearly (station 4) false)) = .next t :=
  ⟨by decide, _, rfl⟩

theorem witness_QueueStaysLawful :
    QueueLawful (about (.attemptFailed 5) (queued (.headOn 41 0) true)) ∧
    ∃ t, step (about (.attemptFailed 5) (queued (.headOn 41 0) true)) = .next t :=
  ⟨by decide, _, rfl⟩

theorem witness_ErrorCountsStayBounded :
    QueueLawful (about (.attemptFailed 5) { queued (.headOn 41 0) true with
      ec := { State.reset.ec with link := .muted, txErrors := 199, rxErrors := 255 } }) ∧
    ErrorsLawful (about (.attemptFailed 5) { queued (.headOn 41 0) true with
      ec := { State.reset.ec with link := .muted, txErrors := 199, rxErrors := 255 } }).ec ∧
    ∃ t, step (about (.attemptFailed 5) { queued (.headOn 41 0) true with
      ec := { State.reset.ec with link := .muted, txErrors := 199, rxErrors := 255 } }) = .next t :=
  ⟨by decide, by decide, _, rfl⟩

theorem witness_ResetAndRelease :
    (10 : Nat) ≤ 10 ∧ (1 : Nat) < 2 ∧ ((2 : Nat) ≤ 2 ∧ (2 : Nat) < 10) ∧ ((2 : Nat) ≤ 9 ∧ (9 : Nat) < 10) ∧
    State.reset.ldr.phase = .held ∧ (station 4).ldr.phase ≠ .held := by decide

/-- A good image for a station at position 5 of 7: the items of R178 in order, the defaults of `values`, no table. -/
def goodImage : List Byte :=
  let two := fun n : Nat => [BitVec.ofNat 8 (n / 256), BitVec.ofNat 8 n]
  let body := [7] ++ two 5500 ++ two 2000 ++ two 300 ++ two 20000 ++ two 1000 ++ two 2500 ++ two 300 ++ two 50 ++
    [25, 40] ++ two 100 ++ two 100 ++ two 20000 ++ two 5000 ++ [3, 0] ++ List.replicate 20 0 ++ two 10000 ++
    values.h.toList.flatMap two ++ values.f.toList.map (BitVec.ofNat 8) ++ values.theta.toList.flatMap two ++ [8, 2] ++
    two 15000 ++ two 80 ++ two 2500
  body ++ bytesOf16 (crc body)

set_option maxRecDepth 4000 in
theorem witness_StartUpEnds :
    reading5.ldr.phase = .reading ∧ imageGood reading5.position goodImage = true ∧
    elapsed 20000 reading5.ldr.releasedAt ≤ 20000 ∧ 20000 ≤ elapsed 20000 reading5.ldr.releasedAt ∧
    20000 < elapsed 20001 reading5.ldr.releasedAt ∧ imageGood reading5.position [] = false ∧
    (station 4).ldr.phase ≠ .reading := by
  refine ⟨by decide, by decide +kernel, by decide, by decide, by decide, by decide, by decide⟩

theorem witness_FeedbackSamplesAreHeld : OutOfReset (station 4) ∧ State.reset.ldr.phase = .held := by decide

theorem witness_SilenceMakesStale :
    OutOfReset (station 4) ∧ (station 4).sens.forceStale = false ∧ 2000 ≤ elapsed 2000 (station 4).sens.forceAt ∧
    (station 4).sens.angleStale = false ∧ 5000 ≤ elapsed 5000 (station 4).sens.angleAt ∧
    (station 4).sens.speedStale = false ∧ 5000 ≤ elapsed 5000 (station 4).sens.speedAt := by decide

theorem witness_AlarmsAndTheirDetail :
    (2 * (1499 : Int) < 2 * 1000 * 1 + 1000 ∧ 2 * 1000 * 1 - 1000 < 2 * (1499 : Int)) ∧
    ((1500 : Int) = 1000 * 1 + 500 ∧ (0 : Int) ≤ 1 ∧ (1 : Int) < 32767) ∧
    ((-2500 : Int) = 1000 * (-2) - 500 ∧ (-2 : Int) ≤ 0 ∧ (-32768 : Int) < -2) ∧
    (-32768000 : Int) ≤ -32768000 ∧ (32767000 : Int) ≤ 32767000 := by decide

theorem witness_SampleGrowsOrEndsRun :
    (let s := { nearly (station 4) false with sens := { (nearly (station 4) false).sens with run := some ⟨2, 7⟩ } }
     Evaluates s ∧ FarSide s 2500 ∧ runLength s < samplesNeeded s.sens.speed) ∧
    (Evaluates (station 4) ∧ ¬FarSide (station 4) 2499) ∧
    (let s := { station 4 with sens := { (station 4).sens with drill := some .blocking } }
     OutOfReset s ∧ s.seq.stand ≠ .unconfigured ∧ s.sens.forceStale = false ∧ s.sens.drill = some .blocking) := by decide

theorem witness_LoadOnOpensBite :
    (let s := nearly (tracking (station 4) [tail 40 1000, head 41 600000]) false
     DecidesLoadOn s 2500 ∧ s.sens.drill = none ∧ (s.seq.stand = .empty ∨ s.seq.stand = .awaiting) ∧
     s.trk.markers.find? (fun m => m.kind == .head) = some (head 41 600000) ∧ (s.atFirst = true → (41 : Tag) ≠ 0)) := by
  decide

theorem witness_LoadOnOpensBite_firstStation :
    (let s := nearly (tracking (station 0) [head 0 1000]) false
     DecidesLoadOn s 2500 ∧ s.sens.drill = none ∧ (s.seq.stand = .empty ∨ s.seq.stand = .awaiting) ∧
     s.trk.markers.find? (fun m => m.kind == .head) = some (head 0 1000) ∧ s.atFirst = true ∧
     s.store.table.find? (fun r => r.state == .waiting && !(s.trk.markers.any fun m => m.tag == r.tag)) = none) := by
  decide

theorem witness_UnannouncedLoadOn :
    (let s := nearly (tracking (station 4) [tail 40 1000]) false
     DecidesLoadOn s 2500 ∧ s.sens.drill = none ∧ (s.seq.stand = .empty ∨ s.seq.stand = .awaiting) ∧
     s.trk.markers.find? (fun m => m.kind == .head) = none ∧ s.atFirst = false) := by decide

theorem witness_UnannouncedLoadOn_firstStation :
    (let s := { nearly (tracking (station 0) [tail 41 1000]) false with
       store := { staging := values, table := [record 41 .waiting] } }
     DecidesLoadOn s 2500 ∧ s.sens.drill = none ∧ (s.seq.stand = .empty ∨ s.seq.stand = .awaiting) ∧
     s.trk.markers.find? (fun m => m.kind == .head) = none ∧ s.atFirst = true ∧
     s.store.table.find? (fun r => r.state == .waiting && !(s.trk.markers.any fun m => m.tag == r.tag)) = none) := by
  decide

/-- Position 1, a head of tag 0 in the list, two WAITING records, the older one's tag on a marker. -/
def first1 : State :=
  { nearly (tracking (station 0) [head 0 1000, tail 41 5000]) false with
    store := { staging := values, table := [record 41 .waiting, record 42 .waiting] } }

theorem witness_FirstStationBindsOldest :
    DecidesLoadOn first1 2500 ∧ first1.sens.drill = none ∧ (first1.seq.stand = .empty ∨ first1.seq.stand = .awaiting) ∧
    first1.atFirst = true ∧
    (∀ m, first1.trk.markers.find? (fun m => m.kind == .head) = some m → m.tag = 0) ∧
    first1.store.table.find? (fun r => r.state == .waiting && !(first1.trk.markers.any fun m => m.tag == r.tag)) =
      some (record 42 .waiting) ∧ (record 42 .waiting).tag ≠ 0 := by
  refine ⟨by decide, by decide, by decide, by decide, ?_, by decide, by decide⟩
  intro m h
  have : some (head 0 1000) = some m := h
  cases this
  rfl

theorem witness_FirstStationBindsOldest_lists :
    (∀ x ∈ [head 0 5, tail 41 5], x.kind = .tail → x.tag ≠ 0) ∧ (tail 0 7).kind = .tail ∧ (tail 0 7).tag = 0 ∧
    (∀ r ∈ [record 40 .entered], r.tag ≠ 41) ∧ (record 41 .waiting).tag = 41 ∧
    ∀ r ∈ [record 42 .waiting], r.tag ≠ 41 := by decide

theorem witness_LoadOffEndsBite :
    (let s := nearly coupled5 true
     DecidesLoadOff s 999 ∧ s.seq.stand.biting = true ∧ s.seq.bite = some { bite41 with partner := some 41 }) := by decide

theorem witness_LoadOffEndsBite_tails :
    (∀ x ∈ [head 41 5, tail 40 6], x.kind = .tail → x.tag ≠ 41) ∧ (tail 41 7).tag = 41 ∧
    (∀ x ∈ [head 41 5], x.kind ≠ .tail) ∧ ∀ x ∈ [head 41 5] ++ tail 40 6 :: [], x.kind = .tail → x.tag ≠ 41 := by decide

theorem witness_LoadEventsWithoutBite :
    (let s := nearly coupled5 false
     DecidesLoadOn s 2500 ∧ s.sens.drill = none ∧ s.seq.stand = .coupled) ∧
    (let s := nearly (station 4) true
     DecidesLoadOff s 999 ∧ s.seq.stand = .empty) ∧
    (let s := nearly held5 true
     DecidesLoadOff s 999 ∧ s.seq.stand = .hold ∧ s.hold.qualified = false) ∧
    (let s := { nearly held5 true with hold := { State.reset.hold with qualified := true } }
     DecidesLoadOff s 999 ∧ s.seq.stand = .hold ∧ s.hold.qualified = true) ∧
    (let s := { nearly (station 4) false with sens := { (nearly (station 4) false).sens with drill := some .waiting } }
     DecidesLoadOn s 2500 ∧ s.sens.drill = some .waiting) := by decide

theorem witness_ResumptionAlignsDetector :
    (let s := { coupled5 with sens := { coupled5.sens with forceStale := true } }
     OutOfReset s ∧ s.sens.forceStale = true ∧ s.seq.stand ≠ .unconfigured ∧ s.seq.stand ≠ .hold ∧
     s.seq.bite.isSome = true ∧ s.ldr.image.fOff ≤ min 1000 40000) ∧
    (let s := { station 4 with sens := { (station 4).sens with forceStale := true } }
     OutOfReset s ∧ s.sens.forceStale = true ∧ s.seq.stand ≠ .unconfigured ∧ s.seq.stand ≠ .hold ∧
     s.seq.bite = none ∧ s.sens.drill ≠ some .blocking ∧ min 2499 40000 < s.ldr.image.fOn) := by decide

/-- A station whose force input is stale, with a drill. -/
def silent (s : State) (drill : Option DrillPhase) : State :=
  { s with sens := { s.sens with forceStale := true, drill := drill } }

theorem witness_ResumptionAlignsDetector_clauses :
    (let s := { silent held5 none with hold := { State.reset.hold with qualified := true, timer := none } }
     OutOfReset s ∧ s.sens.forceStale = true ∧ s.seq.stand = .hold ∧ s.hold.qualified = true ∧ s.seq.bite = none) ∧
    ¬((silent coupled5 none).seq.stand = .hold ∧ (silent coupled5 none).hold.qualified = true ∧
      (silent coupled5 none).seq.bite = none) ∧
    ((silent unconfigured5 none).seq.stand = .unconfigured ∧ (silent unconfigured5 none).seq.bite = none) ∧
    ((silent coupled5 (some .blocking)).seq.stand ≠ .unconfigured ∧ (silent coupled5 (some .blocking)).seq.stand ≠ .hold ∧
      (silent coupled5 (some .blocking)).seq.bite.isSome = true ∧ (silent coupled5 (some .blocking)).sens.run = none ∧
      min 999 40000 < (silent coupled5 (some .blocking)).ldr.image.fOff) ∧
    ((silent (station 4) none).seq.bite = none ∧ (silent (station 4) none).sens.run = none ∧
      (silent (station 4) none).sens.drill ≠ some .blocking ∧ (silent (station 4) none).ldr.image.fOn ≤ min 2500 40000) ∧
    (silent (station 4) (some .blocking)).sens.drill = some .blocking := by decide

/-- Position 1 with a debounced level and a candidate run. -/
def hot (level : Option Bool) (run : Option HotRun) : State :=
  { station 0 with sens := { (station 0).sens with hotLevel := level, hotRun := run } }

theorem witness_HotMetalIsDebounced :
    OutOfReset (hot none none) ∧ (hot none none).atFirst = true ∧
    (hot (some true) none).sens.hotLevel = some true ∧
    ((hot (some false) none).sens.hotLevel ≠ some true ∧ (hot (some false) none).sens.hotRun = none) ∧
    ((hot (some false) (some ⟨true, 7, 0⟩)).sens.hotRun = some ⟨true, 7, 0⟩ ∧ (7 : Nat) < 8) ∧
    ((hot none (some ⟨true, 8, 0⟩)).sens.hotRun = some ⟨true, 8, 0⟩ ∧ (8 : Nat) ≤ 8) ∧
    ((hot (some false) (some ⟨true, 8, 0⟩)).sens.hotRun = some ⟨true, 8, 0⟩ ∧
      (hot (some false) (some ⟨true, 8, 0⟩)).sens.hotLevel = some (!true)) := by decide

theorem witness_HotMetalEdgeMakesMarker :
    (let s := hot (some false) (some ⟨true, 8, 0⟩)
     OutOfReset s ∧ s.atFirst = true ∧ s.sens.hotLevel = some (!true) ∧ s.sens.hotRun = some ⟨true, 8, 0⟩ ∧
     s.seq.stand.tracks = true ∧ s.trk.markers.length < 8) ∧
    (let s := tracking (hot (some true) (some ⟨false, 8, 0⟩)) (List.replicate 8 (tail 41 1000))
     OutOfReset s ∧ s.atFirst = true ∧ s.sens.hotLevel = some (!false) ∧ s.sens.hotRun = some ⟨false, 8, 0⟩ ∧
     s.seq.stand.tracks = true ∧ 8 ≤ s.trk.markers.length) ∧
    (let s := { hot (some false) (some ⟨true, 8, 0⟩) with seq := { stand := .hold, bite := none } }
     OutOfReset s ∧ s.atFirst = true ∧ s.sens.hotLevel = some (!true) ∧ s.seq.stand.tracks = false) := by decide

/-- An AWAITING stand. -/
def waiting5 : State := { station 4 with seq := { stand := .awaiting, bite := none } }

theorem witness_ExpiryMovesMarkers :
    (tracking (station 4) [tail 41 1200000, head 42 1203000]).seq.stand ≠ .unconfigured ∧
    PredictsNothing (tracking (station 4) [tail 41 1200000, head 42 1203000]) :=
  ⟨by decide, predictsNothing_fresh (by decide)⟩

/-- A missed head in EMPTY, a missed head while the stand bites, a tail lead, and UNCONFIGURED. -/
theorem witness_ExpiryMovesMarkers_cases :
    (let s := tracking (station 4) [head 41 (-500001)]
     s.seq.stand = .empty ∧ s.sens.forceStale = false ∧ missedHeads s ≠ [] ∧ substitutesMarker s = true) ∧
    (let s := tracking coupled5 [head 41 (-500001), tail 41 2500000]
     s.seq.stand = .coupled ∧ s.sens.forceStale = false ∧ missedHeads s ≠ [] ∧ leadsTail s = true) ∧
    (let s := tracking coupled5 [tail 41 (-500001)]
     tailOverdue s = true ∧ leadsTail s = false ∧ missedHeads s = []) ∧
    unconfigured5.seq.stand = .unconfigured := by decide

/-- R41, R48: SUBSTITUTED and TAIL-OVERDUE are set at an ordinary expiry, and no other flag. -/
theorem test_expiry_flags :
    After (.trackingExpiry 9) (tracking coupled5 [tail 40 (-500001)])
      (fun t => t.stickySet .substituted && t.stickySet .tailOverdue && !t.stickySet .strayHead &&
        t.trk.markers == [] && t.seq.stand == .coupled) := by
  unfold After; decide

/-- A stale force input and a head that has not yet crossed, at the edge. -/
theorem witness_ExpiryMovesMarkers_stale :
    (tracking (silent (station 4) none) [head 41 1]).sens.forceStale = true ∧
    PredictsNothing (tracking (silent (station 4) none) [head 41 1]) := by
  refine ⟨by decide, fun _ => ⟨?_, ?_⟩⟩
  · rintro m ⟨_, h, hd⟩
    have hm : some (head 41 1) = some m := h
    cases hm
    exact absurd hd (by decide)
  · rintro b m ⟨h, _⟩
    exact absurd h (by decide)

theorem witness_MarkersKeepTheirPlaces :
    (1 < [tail 41 1000, head 42 500].length ∧ 1 < (clampOrder [tail 41 1000, head 42 500]).length) ∧
    (clampOrder [tail 41 1000, head 42 500])[1]? = some (head 42 1000) ∧
    insertMarker (head 42 1000) [tail 41 1000, head 43 2000] = [tail 41 1000, head 42 1000, head 43 2000] := by decide

theorem witness_MissedHeadHoldsTrain :
    (let s := tracking (station 4) [head 41 (-500001), head 42 (-500000)]
     s.sens.forceStale = false ∧ s.seq.stand = .empty ∧ missedHeads s = [head 41 (-500001)]) ∧
    (let s := tracking coupled5 [head 41 (-500001)]
     s.sens.forceStale = false ∧ s.seq.stand.biting = true ∧ s.seq.bite = some { bite41 with partner := some 41 } ∧
     missedHeads s = [head 41 (-500001)]) := by decide

theorem witness_MissedHeadHoldsTrain_several :
    (let s := tracking { station 4 with seq := { stand := .awaiting, bite := none } }
       [head 41 (-500002), head 42 (-500001), head 43 500000]
     s.sens.forceStale = false ∧ s.seq.stand = .awaiting ∧ missedHeads s = head 41 (-500002) :: [head 42 (-500001)] ∧
     ((leftMarkers s).find? fun x => x.kind == .head) = some (head 43 500000)) := by decide

theorem witness_WindowAndTailLead :
    (let s := tracking (station 4) [head 41 500000]
     s.sens.forceStale = false ∧ s.seq.stand = .empty ∧
     (leftMarkers s).find? (fun x => x.kind == .head) = some (head 41 500000)) ∧
    (let s := tracking coupled5 [tail 41 2500000]
     s.sens.forceStale = false ∧ s.seq.stand = .coupled ∧ s.seq.bite = some { bite41 with partner := some 41 } ∧
     (leftMarkers s).find? (fun x => x.kind == .tail && x.tag == 41) = some (tail 41 2500000) ∧
     s.atLast = false ∧ (2500000 : Int) ≤ (s.lookup 41).values.lLow * 1000) ∧
    (let s := tracking coupled5 [tail 41 2500001]
     (leftMarkers s).find? (fun x => x.kind == .tail && x.tag == 41) = some (tail 41 2500001) ∧
     ((s.lookup 41).values.lLow * 1000 : Int) < 2500001) ∧
    (biting 6 .coupled bite41).atLast = true := by decide

/-- EMPTY with no head left; AWAITING without and with a miss; COUPLED with no tail of the bite's tag; the other states. -/
theorem witness_WindowAndTailLead_cases :
    (station 4).sens.forceStale = false ∧
    (leftMarkers (tracking (station 4) [head 41 (-500001)])).find? (fun x => x.kind == .head) = none ∧
    (let s := tracking waiting5 [head 41 500001]
     s.sens.forceStale = false ∧ s.seq.stand = .awaiting ∧ missedHeads s = []) ∧
    (let s := tracking waiting5 [head 41 (-500001)]
     missedHeads s ≠ [] ∧ (leftMarkers s).find? (fun x => x.kind == .head) = none) ∧
    (let s := tracking waiting5 [head 41 (-500001), head 42 500001]
     missedHeads s ≠ [] ∧ (leftMarkers s).find? (fun x => x.kind == .head) = some (head 42 500001) ∧
     ¬(500001 : Int) ≤ s.window) ∧
    (leftMarkers (tracking coupled5 [tail 42 0])).find? (fun x => x.kind == .tail && x.tag == 41) = none ∧
    (biting 4 .threading bite41).seq.stand = .threading ∧ (biting 4 .tailing bite41).seq.stand = .tailing ∧
    held5.seq.stand = .hold ∧ held5.sens.forceStale = false := by decide

/-- A head crossing behind a missed one in EMPTY; a head of tag 0 at position 1 beside a WAITING record; a tail crossing
ahead of a head within the window. -/
theorem witness_CrossingsPredictLoadEvents :
    (let s := tracking (silent (station 4) none) [head 40 (-500001), head 41 0, tail 41 5000]
     s.sens.forceStale = true ∧ HeadCrosses s (head 41 0) ∧ missedHeads s = [head 40 (-500001)] ∧ s.atFirst = false) ∧
    (let s := { tracking (silent (station 0) none) [head 0 0] with
       store := { staging := values, table := [record 41 .waiting] }, seq := { stand := .awaiting, bite := none } }
     s.sens.forceStale = true ∧ HeadCrosses s (head 0 0) ∧ s.atFirst = true ∧
     s.store.table.find? (fun r => r.state == .waiting && !((leftMarkers s).any fun x => x.tag == r.tag)) =
       some (record 41 .waiting) ∧ (record 41 .waiting).tag ≠ 0) ∧
    (let s := tracking (silent coupled5 none) [tail 41 (-500000), head 42 0]
     s.sens.forceStale = true ∧ TailCrosses s { bite41 with partner := some 41 } (tail 41 (-500000))) := by decide

/-- R49, R117: an EMPTY stand whose front head crosses at a stale expiry opens a PREDICTED bite at that expiry. -/
theorem test_crossing_opens_predicted_bite :
    After (.trackingExpiry 9) (tracking (silent (station 4) none) [head 41 0])
      (fun t => t.seq.stand == .threading && (t.seq.bite.any fun b => b.predicted && !b.early && b.tag == 41)) := by
  unfold After; decide

/-- A looper in an operation with an angle measured. -/
def looping (state : LooperState) (angle : Nat) : State :=
  { coupled5 with lp := { state := state, command := 1000, integral := 0, trim := 0 }
                  sens := { coupled5.sens with angle := some angle } }

/-- The arm of `looping` is within band of its reference. -/
def armed (s : State) : Bool :=
  !s.sens.angleStale && decide (s.measuredAngle ≤ s.biteSchedule.values.thetaAt s.position + s.ldr.image.band) &&
    decide (s.biteSchedule.values.thetaAt s.position ≤ s.measuredAngle + s.ldr.image.band)

/-- The arm of `looping` is at rest. -/
def home (s : State) : Bool := !s.sens.angleStale && decide (s.measuredAngle ≤ s.ldr.image.thetaRest + s.ldr.image.band)

theorem witness_RaisingPeriod :
    (looping (.raising 49 41) 1850).lp.state = .raising 49 41 ∧ (looping (.raising 49 41) 1850).seq.stand ≠ .unconfigured ∧
    armed (looping (.raising 49 41) 1850) = true ∧ armed (looping (.raising 49 41) 1851) = false ∧
    (48 + 1) * 2 < (looping (.raising 48 41) 1851).ldr.image.raiseTimeout ∧
    (looping (.raising 49 41) 1851).ldr.image.raiseTimeout ≤ (49 + 1) * 2 := by decide

theorem witness_LoweringPeriod :
    (looping (.lowering 49 41) 350).lp.state = .lowering 49 41 ∧ (looping (.lowering 49 41) 350).seq.stand ≠ .unconfigured ∧
    home (looping (.lowering 49 41) 350) = true ∧ home (looping (.lowering 49 41) 351) = false ∧
    (48 + 1) * 2 < (looping (.lowering 48 41) 351).ldr.image.lowerTimeout ∧
    (looping (.lowering 49 41) 351).ldr.image.lowerTimeout ≤ (49 + 1) * 2 := by decide

theorem witness_TensionAndRest :
    ((looping .tension 2150).lp.state = .tension ∧ (looping .tension 2150).seq.stand ≠ .unconfigured ∧
      (looping .tension 2150).sens.angleStale = false ∧ (looping .tension 2150).seq.stand ≠ .hold) ∧
    { (looping .tension 2150) with sens := State.reset.sens }.sens.angleStale = true ∧
    unconfigured5.seq.stand = .unconfigured ∧ (looping .none 0).lp.state = .none ∧
    (looping .parked 0).lp.state = .parked ∧
    (looping (.stalled .raise 41) 0).lp.state = .stalled .raise 41 ∧
    (looping (.stalled .lower 41) 350).lp.state = .stalled .lower 41 ∧
    home (looping (.stalled .lower 41) 350) = true ∧ home (looping (.stalled .lower 41) 351) = false := by decide

theorem witness_CompositionRoundsOnce :
    (2 * ((500 : Int) * 999) < 2 * 1000000 * 0 + 1000000 ∧ 2 * 1000000 * 0 - 1000000 < 2 * ((500 : Int) * 999)) ∧
    2 * ((500 : Int) * 1000) = 2 * 1000000 * 0 + 1000000 ∧ 2 * ((-500 : Int) * 1000) = 2 * 1000000 * 0 - 1000000 := by
  decide

theorem witness_SpeedPeriodWhileBiting :
    coupled5.seq.stand.biting = true ∧ coupled5.seq.bite = some { bite41 with partner := some 41 } := by decide

theorem witness_SpeedPeriodWithoutBite :
    ((station 4).seq.stand.biting = false ∧ (station 4).seq.bite = none ∧
      (station 4).store.table.find? (fun r => r.state == .waiting) = none) ∧
    (held5.seq.stand = .hold ∧ held5.seq.bite = none) ∧
    (unconfigured5.seq.stand = .unconfigured ∧ unconfigured5.seq.bite = none) ∧
    ({ station 4 with store := { staging := values, table := [record 41 .waiting] } } : State).store.table.find?
      (fun r => r.state == RecordState.waiting) = some (record 41 .waiting) := by decide

theorem witness_ViewsAgeAndBoostEnds :
    (let b := { bite41 with impact := some { elapsed := 79, boost := 15000 } }
     (biting 4 .coupled b).seq.bite = some b ∧ ((biting 4 .coupled b).lookup 41).values.impactTime ≤ 79 + 1) ∧
    (let b := { bite41 with impact := some { elapsed := 78, boost := 15000 } }
     (biting 4 .coupled b).seq.bite = some b ∧ 78 + 1 < ((biting 4 .coupled b).lookup 41).values.impactTime) ∧
    (station 4).seq.bite.bind Bite.impact = none := by decide

theorem witness_PeriodicFramesAndAges :
    (let s := { station 4 with cas := { State.reset.cas with periodFrom := some 0 }, rep := { State.reset.rep with periodFrom := some 0 } }
     s.seq.stand ≠ .unconfigured ∧ s.cas.periodFrom = some 0 ∧ 4000 ≤ elapsed 4000 0 ∧
     s.rep.periodFrom = some 0 ∧ 100000 ≤ elapsed 100000 0 ∧ s.trk.markers.length ≤ 8) := by decide

/-- An UNCONFIGURED station, and periods at the edge. -/
theorem witness_PeriodicFramesAndAges_waits :
    unconfigured5.seq.stand = .unconfigured ∧ elapsed 3999 0 < 4000 ∧ elapsed 99999 0 < 100000 ∧
    (station 4).rep.periodFrom = none := by decide

theorem witness_HoldLineHoldsStand :
    (let s := { coupled5 with hold := { State.reset.hold with others := true } }
     OutOfReset s ∧ s.hold.filtered = false ∧ (s.hold.others = true ∨ s.hold.ownDrive = true) ∧
     1000 ≤ elapsed 1000 s.hold.lineAt ∧ s.seq.stand.tracks = true) ∧
    (let s := { unconfigured5 with hold := { State.reset.hold with ownDrive := true } }
     OutOfReset s ∧ s.hold.filtered = false ∧ (s.hold.others = true ∨ s.hold.ownDrive = true) ∧
     1000 ≤ elapsed 1000 s.hold.lineAt ∧ s.seq.stand.tracks = false) := by decide

theorem witness_ReleaseQualifiesAndEndsHold :
    (let s := { held5 with hold := { held5.hold with others := false } }
     OutOfReset s ∧ s.hold.filtered = true ∧ s.hold.others = false ∧ s.hold.ownDrive = false ∧
     1000 ≤ elapsed 1000 s.hold.lineAt) ∧
    (let s := { held5 with hold := { State.reset.hold with timer := some 5 } }
     OutOfReset s ∧ s.hold.timer = some 5 ∧ s.hold.filtered = false ∧ 200000 ≤ elapsed 200005 5 ∧ s.seq.stand = .hold ∧
     s.sens.loaded = false) ∧
    (OutOfReset (station 4) ∧ (station 4).hold.timer = some 0 ∧ (station 4).seq.stand ≠ .hold) := by decide

theorem witness_WireAndOwnDrive : Delivers (station 4) .release 24 .setup := by decide

theorem witness_WireAndOwnDrive_drive :
    ∃ t, exec (.trackingExpiry 9) (tracking (station 4) [head 41 (-500001)]) = .next t ∧
      (tracking (station 4) [head 41 (-500001)]).hold.ownDrive = false ∧ t.hold.ownDrive = true :=
  ⟨_, rfl, rfl, rfl⟩

theorem witness_CleanFramesAreReported :
    Listens (station 4) ∧ FrameIgnored (station 4) .headOn 20 ∧ FrameIgnored unconfigured5 .restart 23 ∧
    FrameStray (station 4) .alarm 24 ∧ FrameStray (station 4) .setupClear 4 ∧ FrameStray (station 4) .headOn 6 ∧
    (let s := { station 0 with ldr := { (station 0).ldr with image := { (station 0).ldr.image with
       accept := [{ bits := 0, mask := 0, role := .upstream }] } } }
     FrameStray s .tailOff 9) ∧
    frameOf (.setupClear ⟨5, true⟩ 4) = some (⟨5, true⟩, .setupClear, 4) ∧ ¬Listens (queued (.headOn 1 0) true) ∧
    unconfigured5.seq.stand = .unconfigured := by
  refine ⟨by decide, by decide, by decide, by decide, by decide, by decide, ?_, by decide, by decide, by decide⟩
  show FrameStray _ _ _
  decide

/-- R165, R166: at station 5 the senders 4 and 6 have their roles, 24 that of a setup station; an overlapping earlier entry
wins. -/
theorem witness_CleanFramesAreReported_roles :
    (station 4).ldr.image.accept = defaultAccept (station 4).position 7 ∧
    (4 : BitVec 5).toNat + 1 = (station 4).position ∧ (6 : BitVec 5).toNat = (station 4).position + 1 ∧
    24 ≤ (24 : BitVec 5).toNat ∧ (station 4).roleOf .headOn 4 = some .upstream ∧
    (station 4).roleOf .headOn 20 = some .closed ∧
    acceptRole [{ bits := 0x003, mask := 0x00F, role := .setup }, { bits := 0, mask := 0, role := .upstream }]
      (acceptBits 2 4 3) = some .setup := by decide

theorem witness_MalformedFrames :
    Listens (station 4) ∧
    ∀ kind : FrameKind, kind.code = 13 → kind.precedence ≠ 3 ∨ kind.length ≠ 1 :=
  ⟨by decide, by intro k; cases k <;> decide⟩

theorem witness_NoticesMakeMarkers :
    (station 4).atFirst = false ∧ Delivers (station 4) .headOn 4 .upstream ∧ Delivers (station 4) .tailOff 4 .upstream ∧
    ∀ b, (station 4).seq.bite = some b → b.unannounced = false :=
  ⟨by decide, by decide, by decide, fun _ h => by cases h⟩

theorem witness_UnannouncedBiteAdopts :
    Delivers unannounced5 .headOn 4 .upstream ∧ unannounced5.atFirst = false ∧
    unannounced5.seq.bite = some { bite41 with tag := 0, unannounced := true } := by decide

theorem witness_DownstreamHeadCouples :
    Delivers (biting 4 .threading bite41) .headOn 6 .downstream ∧ (biting 4 .threading bite41).seq.stand = .threading ∧
    (biting 4 .threading bite41).seq.bite = some bite41 := by decide

theorem witness_FramesWithoutEffect :
    (Delivers coupled5 .headOn 6 .downstream ∧ coupled5.seq.stand ≠ .threading) ∧
    Delivers coupled5 .tailOff 6 .downstream ∧ Delivers coupled5 .alarm 4 .upstream ∧ Delivers coupled5 .alarm 6 .downstream ∧
    Delivers coupled5 .status 4 .upstream ∧ Delivers coupled5 .status 6 .downstream ∧ Delivers coupled5 .alarm 24 .setup ∧
    Delivers coupled5 .status 31 .setup := by decide

theorem witness_CascadeFrameReplacesView :
    Delivers (station 4) .cascade 4 .upstream ∧ Delivers (station 4) .cascade 6 .downstream ∧
    Delivers (station 4) .cascade 24 .setup := by decide

theorem witness_SetupFieldsAmendStaging : Delivers (station 4) .setupFields 24 .setup := by decide

/-- R94, R95: the edges of the ids, on both sides. -/
theorem witness_SetupFieldsAmendStaging_ids :
    fieldOfId 0x18 = some (.h 8) ∧ fieldOfId 0x19 = none ∧ fieldOfId 0x20 = none ∧ fieldOfId 0x21 = some (.f 0) ∧
    fieldOfId 0x28 = some (.f 7) ∧ fieldOfId 0x30 = none ∧ fieldOfId 0x31 = some (.theta 0) ∧
    fieldOfId 0x37 = some (.theta 6) ∧ fieldOfId 0x38 = none ∧ (values.setField (.f 7) 60).fAt 8 = 60 := by decide

/-- A station with a schedule table. -/
def tabled (table : List Record) : State := { coupled5 with store := { staging := values, table := table } }

theorem witness_CloseIsCheckedInOrder :
    (let s := tabled [record 40 .entered, record 42 .waiting, record 43 .waiting]
     Delivers s .setupClose 24 .setup ∧ TableLawful s.store.table ∧ (∀ r ∈ s.store.table, r.tag ≠ 44) ∧
     s.store.table.length = 3 ∧ record 40 .entered ∈ s.store.table ∧ record 42 .waiting ∈ s.store.table) ∧
    (let s := tabled [record 42 .waiting]
     Delivers s .setupClose 24 .setup ∧ TableLawful s.store.table ∧ (∀ r ∈ s.store.table, r.tag ≠ 41) ∧
     s.store.table.length < 3 ∧ (41 : Tag) ≠ 0) ∧
    ∀ k, k < (tabled []).ldr.image.n → (tabled []).store.staging.hAt (k + 1) < (tabled []).store.staging.hAt k := by
  decide

theorem witness_CancelAndClear :
    (let s := tabled [record 40 .entered, record 42 .waiting]
     Delivers s .setupCancel 24 .setup ∧ TableLawful s.store.table ∧
     (∃ r ∈ s.store.table, r.tag = 42 ∧ r.state = RecordState.waiting) ∧
     (∀ r ∈ s.store.table, r.tag = 40 → r.state = RecordState.entered) ∧ Delivers s .setupClear 24 .setup) := by decide

theorem witness_RestartStartsAfresh :
    (Delivers coupled5 .restart 24 .setup ∧ ((5 : Byte) = 0 ∨ (5 : Byte).toNat = coupled5.position)) ∧
    (Listens unconfigured5 ∧ unconfigured5.seq.stand = .unconfigured ∧ 24 ≤ (24 : BitVec 5).toNat) ∧
    ¬((6 : Byte) = 0 ∨ (6 : Byte).toNat = coupled5.position) := by decide

theorem witness_DrillRowsInOrder :
    Delivers (station 4) .drill 24 .setup ∧ (station 4).ldr.commissioning = true ∧
    ((5 : Byte) = 0 ∨ (5 : Byte).toNat = (station 4).position) ∧ (station 4).seq.stand ≠ .hold ∧
    (station 4).sens.drill = none ∧
    (let s := { station 4 with ldr := { (station 4).ldr with commissioning := false } }
     Delivers s .drill 24 .setup ∧ s.ldr.commissioning = false) ∧
    (Delivers held5 .drill 24 .setup ∧ held5.seq.stand = .hold) ∧
    ¬((6 : Byte) = 0 ∨ (6 : Byte).toNat = (station 4).position) := by decide

theorem witness_DiscardedFrames :
    Listens (station 4) ∧ receiverFinds (List.replicate 9 true) = some .markerBit := by decide

theorem witness_DiscardedFrames_read :
    Attends (station 4) ∧ receiverFinds (List.replicate 107 true) = some .markerBit ∧
    receiverFinds (List.replicate 108 true) = some .markerBit ∧
    (let bits := List.replicate 108 true
     min 8 (8 * (bits.getD 13 false).toNat + 4 * (bits.getD 14 false).toNat + 2 * (bits.getD 15 false).toNat +
       (bits.getD 16 false).toNat) = 8) ∧ 107 < 36 + 9 * 8 ∧ 36 + 9 * 8 ≤ 108 := by decide

/-- A slot with a dominant bit, and one without; a frame of length 0 read to its last marker bit. -/
theorem witness_DiscardedFrames_ends :
    ((true && false) = false ∧ (true && true) = true) ∧
    (receiverFinds (List.replicate 35 false ++ [true])).isSome = true ∧
    (List.replicate 35 false ++ [true]).length = 36 + 9 * 0 := by decide

theorem witness_IdleAndContest :
    (let s := queued (.headOn 41 0) false
     Listens s ∧ s.link.reception = none ∧ s.link.idle = true ∧ s.ec.link.sends = true ∧
     chooseFrame s.txq.slots = some (0, slotOf (.headOn 41 0) false)) ∧
    (Listens (station 4) ∧ (station 4).link.idle = false) ∧
    (10 ≤ (station 4).link.recessive + elapsed 10 (station 4).link.recessiveAt / 1 ∧
      (station 4).link.recessive + elapsed 9 (station 4).link.recessiveAt / 1 < 10) := by decide

/-- A JOINING station at 1,000 kbit/s whose count began at 0. -/
def joining5 : State := { station 4 with ec := { State.reset.ec with rxErrors := 64 } }

/-- A MUTED station. -/
def muted5 : State := { station 4 with ec := { (station 4).ec with link := .muted, rxErrors := 200 } }

/-- The first two octets of a HEAD-ON from station 4 with their marker bits, as R143 has them: length field 3. -/
def head3 : List Bool :=
  [false, false, true, false, false, true, false, false, true, false, false, false, true, false, false, true, true, false]

/-- A receiver that has held an error in a frame, with so many recessive bits read at clock reading 0. -/
def inError5 (recessive : Nat) : State :=
  { station 4 with link := { State.reset.link with
      recessive := recessive, reception := some { bits := 30, bitsAt := 0, frame := head3, error := true } } }

/-- The edge of 10 bits within a frame in error, and a frame without an error. -/
theorem witness_IdleAndContest_error :
    (Attends (inError5 4) ∧ (∀ r, (inError5 4).link.reception = some r → r.error = true) ∧
      10 ≤ (inError5 4).link.recessive + elapsed 6 (inError5 4).link.recessiveAt / 1 ∧
      (inError5 4).link.recessive + elapsed 5 (inError5 4).link.recessiveAt / 1 < 10) ∧
    (let s := { station 4 with link := { State.reset.link with
       reception := some { bits := 30, bitsAt := 0, frame := head3, error := false } } }
     Attends s ∧ ∃ r, s.link.reception = some r ∧ r.error = false) := by
  refine ⟨by decide, by decide, { bits := 30, bitsAt := 0, frame := head3, error := false }, rfl, rfl⟩

/-- R145: 10 recessive bits after a break make the line idle within the frame as reckoned, which is still being taken. -/
theorem test_idle_within_frame_in_error :
    After (.lineIdle 6 ⟨10, 3⟩) (inError5 4) (fun t => t.link.idle && t.link.foundError) := by
  unfold After; decide

/-- R145, R149: a MUTED receiver leaves the slot alone. After a break that ended 10 bits before the end of the slot the line is
idle there; after the frame's own slot the count starts afresh. -/
theorem test_undriven_slot_count :
    After (.receiveError 9 (readOf (List.replicate 28 false ++ List.replicate 8 true) 10)) muted5 (fun t =>
      t.link.idle && t.link.recessive == 10 && t.link.reception.isNone) ∧
    After (.receiveError 9 (readOf (List.replicate 35 false ++ [true]) 0)) muted5 (fun t =>
      !t.link.idle && t.link.recessive == 0 && t.link.carried == 3) := by
  unfold After; decide

/-- R145, R148, R149: reject bits of other stations after a break return the count to 0, here 8 bits after it. -/
theorem test_slot_driven_by_others :
    After (.receiveError 9 ⟨List.replicate 28 false ++ List.replicate 8 true, ⟨false, false⟩, 10⟩) muted5 (fun t =>
      !t.link.idle && t.link.recessive == 0 && t.link.carried == 0) ∧
    After (.receiveError 9 ⟨List.replicate 28 false ++ List.replicate 8 true, ⟨false, true⟩, 10⟩) muted5 (fun t =>
      !t.link.idle && t.link.recessive == 1 && t.link.carried == 0) := by
  unfold After; decide

/-- R170: a station whose JOINING ended at reading 8 drives a slot that begins there, and not one that began at 7. -/
theorem test_slot_by_first_bit :
    (let s := { station 4 with ec := { (station 4).ec with silentTo := some 8 } }
     After (.receiveError 10 (readOf (List.replicate 108 true) 0)) s (fun t => t.link.rejectDriven && t.ec.rxErrors == 1) ∧
     After (.receiveError 9 (readOf (List.replicate 108 true) 110)) s (fun t =>
       !t.link.rejectDriven && t.link.recessive == 110 && t.ec.rxErrors == 1)) := by
  unfold After; decide

/-- R171: the recessive bits a frame ends with: none after a slot with both bits dominant, two after a dominant last marker
bit, three after a recessive one. -/
theorem test_run_at_frame_end :
    After (.frameRejected ⟨9, ⟨false, false⟩⟩) joining5 (fun t => t.recessiveRun == 0) ∧
    After (.frameRejected ⟨9, ⟨false, true⟩⟩) joining5 (fun t => t.recessiveRun == 1) ∧
    After (.alarmReceived ⟨9, false⟩ 4) joining5 (fun t => t.recessiveRun == 2) ∧
    After (.alarmReceived ⟨9, true⟩ 4) joining5 (fun t => t.recessiveRun == 3) := by
  unfold After; decide

theorem witness_QueueOffersAndChoice :
    (station 4).ec.link.sends = true ∧ (∃ i : Fin 4, (station 4).txq.slots[i] = none) ∧ State.reset.ec.link.sends = false ∧
    (queued (.status (Vector.replicate 8 0)) false).txq.slots[(0 : Fin 4)] =
      some (slotOf (.status (Vector.replicate 8 0)) false) ∧
    chooseFrame (queued (.headOn 41 0) false).txq.slots = some (0, slotOf (.headOn 41 0) false) ∧
    (let v : Slots := Vector.replicate 4 (some (slotOf (.headOn 41 0) false))
     ∀ i : Fin 4, v[i] ≠ none) := by decide

theorem witness_LostContestAndBitError :
    (let s := queued (.headOn 41 0) true
     s.link.attempt = some { slot := 0, bits := 0, bitsAt := 0, age := 0, check := 0, flawed := false, breaking := false } ∧
     s.txq.slots[(0 : Fin 4)] = some (slotOf (.headOn 41 0) true)) ∧
    (slotOf (.headOn 41 0) true).cleared = false := by decide

/-- Station 5 sends HEAD-ON: start, 001, 00101: recessive at the bits 4, 7 and 9; the last marker bit is bit 64. -/
theorem witness_LostContestAndBitError_bits :
    (let wire := wireBits ((TxFrame.headOn 41 0).content (station 4).sender 0) 0
     wire.take 9 = [false, false, false, true, false, false, true, false, true] ∧ wire.getD (4 - 1) false = true ∧
     wire.getD (9 - 1) false = true ∧ wire.getD (2 - 1) false = false) ∧
    37 + 9 * FrameKind.headOn.length.toNat = 64 := by decide

/-- R147, R148: the contest is lost at bit 4 and not at bit 5; bit 5 gives a bit error, bit 65, of the reject slot, none. -/
theorem test_contest_and_tested_bits :
    sendsRecessiveInContest 4 (queued (.headOn 41 0) true) = true ∧
    sendsRecessiveInContest 5 (queued (.headOn 41 0) true) = false ∧
    testsBit 0 5 (queued (.headOn 41 0) true) = true ∧ testsBit 0 64 (queued (.headOn 41 0) true) = true ∧
    testsBit 0 4 (queued (.headOn 41 0) true) = false ∧ testsBit 0 65 (queued (.headOn 41 0) true) = false := by decide

/-- R141: at any reading after a pin reset the recessive count is 0. -/
theorem test_reset_recessive_count :
    After (.pinReset 4000 .powerOn) (station 4) (fun t => t.recessiveBits == 0 && ({ t with clock := 9000 }).recessiveBits == 0) := by
  unfold After; decide

set_option maxRecDepth 4000 in
/-- R144: in a frame of length 0 with a wrong check word the mismatch is found at the last check bit, 35 bits after the start
bit, before the last marker bit and not a bit earlier. -/
theorem test_mismatch_before_marker :
    (let octet := List.replicate 8 false ++ [true]
     let bits := octet ++ octet ++ octet ++ octet
     receiverFinds (bits.take 34) = none ∧ receiverFinds (bits.take 35) = some .checkMismatch ∧
     receiverFinds bits = some .checkMismatch) := ⟨rfl, rfl, rfl⟩

/-- R147: the frame of a contest lost at bit 4 begins with the bits 2 and 3 as sent, and the lost bit read dominant. -/
theorem test_lost_contest_keeps_bits :
    After (.arbitrationLost 3 ⟨4, head3.drop 3⟩) (queued (.headOn 41 0) true)
      (fun t => t.link.frameSoFar == [false, false, false] ++ head3.drop 3) := by
  unfold After; decide

/-- Station 5 sends the frame with FLAW-FRAME armed; its STATUS period is done at reading 100,000. -/
def flawing5 (bitsAt : Instant) : State :=
  let s := queued (.headOn 41 0) true
  { s with
    link := { s.link with
      flawArmed := true
      attempt := s.link.attempt.map fun a => { a with flawed := true, bitsAt := bitsAt } }
    rep := { s.rep with periodFrom := some 0 } }

/-- R157: the last check bit of a HEAD-ON is bit 63 and ends 63 bit times after the beginning of the start bit: a STATUS frame offered then reports the drill
as fired, with the instant of that end, and one offered a bit earlier as armed. -/
theorem test_flaw_fires_at_last_check_bit :
    After (.statusFramePeriod 100000) (flawing5 99937) (fun t =>
      !t.link.flawArmed && t.stickyMark .drillFired == some ⟨100000, (flawing5 0).txq.nextOrder⟩) ∧
    After (.statusFramePeriod 100000) (flawing5 99938) (fun t => t.link.flawArmed && !t.stickySet .drillFired) ∧
    ({ flawing5 99936 with clock := 99998 }).flawStillArmed = true ∧
    ({ flawing5 99936 with clock := 99999 }).flawStillArmed = false := by
  unfold After; decide

/-- R141: at 1,000 kbit/s 20 µs after the beginning of the start bit 20 bits have been sent. -/
theorem test_bits_sent :
    ({ queued (.headOn 41 0) true with clock := 20 }).bitsSent = 20 := by decide

/-- R149: an error found in the first octet is held; the frame read to its last marker bit is reported. -/
theorem test_error_held_then_reported :
    After (.receiveError 9 (readOf (List.replicate 9 true) 0)) (station 4)
      (fun t => t.link.reception == some { bits := 10, bitsAt := 9, frame := List.replicate 9 true, error := true } && t.ec.rxErrors == 0 &&
        t.link.recessive == 0 && t.link.carried == 9) ∧
    After (.receiveError 9 (readOf (List.replicate 108 true) 0)) (station 4)
      (fun t => t.link.reception == none && t.ec.rxErrors == 1 && t.link.rejectDriven) := by
  unfold After; decide

/-- R141, R149: from a start bit that begins at 0 of a frame with length field 3, at 1,000 kbit/s: 17 bits are taken at 17 µs
with no length yet; at 18 µs the length is known; the frame ends for the receiver after 66 bits. An error found in the first octet keeps
the other bits. -/
theorem test_sound_reception_holds_length :
    After (.frameStart ⟨0, head3⟩) (station 4) (fun t =>
      ({ t with clock := 4 }).takenBits == [false, false, false, true] &&
      ({ t with clock := 17 }).bitsTaken == 17 && ({ t with clock := 17 }).lengthTaken == none &&
      ({ t with clock := 18 }).lengthTaken == some 3 && ({ t with clock := 65 }).bitsTaken == 65 && ({ t with clock := 500 }).bitsTaken == 66) ∧
    After (.receiveError 9 (readOf (List.replicate 9 true) 0)) (inError5 0)
      (fun t => t.link.frameSoFar == List.replicate 9 true ++ head3.drop 9) := by
  unfold After; decide

/-- R171: 15 bits are too few, 16 end JOINING; 13 bits after a clean frame, whose end carries 3. -/
theorem test_joining_waits_for_16_bits :
    After (.joiningEnd 15) joining5 (fun t => t.ec.link == .joining) ∧
    After (.joiningEnd 16) joining5 (fun t => t.ec.link == .warned) ∧
    After (.joiningEnd 62) { joining5 with link := { joining5.link with recessiveAt := 50, carried := 3 } }
      (fun t => t.ec.link == .joining) ∧
    After (.joiningEnd 63) { joining5 with link := { joining5.link with recessiveAt := 50, carried := 3 } }
      (fun t => t.ec.link == .warned) := by
  unfold After; decide

/-- R174: a second span at the clock reading of the first is none. -/
theorem test_span_takes_16_bits :
    (let s := { station 4 with ec := { State.reset.ec with link := .offLink, txErrors := 200 } }
     After (.offLinkIdleSpan 16) s fun t => t.ec.spans == 1 && t.spanBits == 0 &&
       (match exec (.offLinkIdleSpan 16) t with | .next u => u.ec.spans == 1 | .fault _ | .refused _ => false) &&
       (match exec (.offLinkIdleSpan 32) t with | .next u => u.ec.spans == 2 | .fault _ | .refused _ => false)) := by
  unfold After; decide

theorem witness_FailedAttempt :
    (let s := { queued (.headOn 41 0) true with ec := { State.reset.ec with link := .muted, txErrors := 199 } }
     s.link.attempt = some { slot := 0, bits := 0, bitsAt := 0, age := 0, check := 0, flawed := false, breaking := false } ∧
     s.txq.slots[(0 : Fin 4)] = some (slotOf (.headOn 41 0) true) ∧ s.ec.link.sends = true ∧ s.ec.txErrors < 200 ∧
     200 ≤ s.ec.txErrors + 8) ∧
    (let s := { queued (.headOn 41 0) true with ec := { State.reset.ec with link := .muted, txErrors := 191 } }
     s.ec.txErrors < 200 ∧ s.ec.txErrors + 8 < 200) := by decide

theorem witness_SucceededAttempt :
    (let s := queued (.status (Vector.replicate 8 0)) true
     s.link.attempt = some { slot := 0, bits := 0, bitsAt := 0, age := 0, check := 0, flawed := false, breaking := false } ∧
     s.txq.slots[(0 : Fin 4)] = some (slotOf (.status (Vector.replicate 8 0)) true) ∧ s.ec.link.sends = true) := by decide

theorem witness_JoiningAndRecovery :
    (let s := { station 4 with ec := State.reset.ec }
     s.ldr.phase = .running ∧ s.ec.link = .joining ∧
     16 ≤ min (s.link.carried + s.link.recessive + elapsed 16 s.link.recessiveAt / 1) (s.ec.joinBits + elapsed 16 s.ec.joinAt / 1) ∧
     min (s.link.carried + s.link.recessive + elapsed 15 s.link.recessiveAt / 1) (s.ec.joinBits + elapsed 15 s.ec.joinAt / 1) < 16) ∧
    (let s := { station 4 with ec := { State.reset.ec with link := .offLink, txErrors := 200, spans := 62 } }
     s.ec.link = .offLink ∧ s.ec.spans + 1 < 64 ∧
     16 ≤ min (s.link.carried + s.link.recessive + elapsed 16 s.link.recessiveAt / 1) (s.ec.spanBits + elapsed 16 s.ec.spanAt / 1)) ∧
    (let s := { station 4 with ec := { State.reset.ec with link := .offLink, txErrors := 200, spans := 63 } }
     s.ec.link = .offLink ∧ 64 ≤ s.ec.spans + 1) := by decide

end Sys2Proof.Tests
end

section
/-! PROOFS. The marker list's two list operations: the order clamp (R43) as a running maximum of distances, and the place of
a new marker (R38); O27 is assembled from them. -/

namespace Sys2Proof.Machine

/-- R29, R38: nearer markers stand in front. -/
abbrev FrontFirst (l : List Marker) : Prop := l.Pairwise fun x y => x.distance ≤ y.distance

/-- R38: `ahead` and `behind` are the parts of a list between which a marker at `distance` goes: all of `behind` is further
away, and the last of `ahead`, where there is one, is not. -/
structure SplitsAt (distance : Int) (ahead behind : List Marker) : Prop where
  behind_further : ∀ x ∈ behind, distance < x.distance
  last_not_further : ∀ x, ahead.getLast? = some x → x.distance ≤ distance

section OrderClamp

@[simp] theorem clampFrom_nil (d : Int) : clampFrom d [] = [] := rfl

/-- R43: a marker is raised to the distance handed on from ahead of it, and hands on the greater of the two. -/
@[simp] theorem clampFrom_cons (d : Int) (m : Marker) (rest : List Marker) :
    clampFrom d (m :: rest) =
      { m with distance := max d m.distance } :: clampFrom (max d m.distance) rest := by
  by_cases h : m.distance < d
  · simp [clampFrom, h, max_eq_left h.le]
  · simp [clampFrom, h, max_eq_right (not_lt.mp h)]

@[simp] theorem clampOrder_nil : clampOrder [] = [] := rfl

@[simp] theorem clampOrder_cons (m : Marker) (rest : List Marker) :
    clampOrder (m :: rest) = m :: clampFrom m.distance rest := rfl

@[simp] theorem clampFrom_length (d : Int) (l : List Marker) : (clampFrom d l).length = l.length := by
  induction l generalizing d with
  | nil => rfl
  | cons m rest ih => simp [ih]

@[simp] theorem clampOrder_length (l : List Marker) : (clampOrder l).length = l.length := by
  cases l <;> simp

theorem clampFrom_changes_only_distance (d : Int) (l : List Marker) (k : Nat) (hk : k < l.length)
    (hc : k < (clampFrom d l).length) :
    (clampFrom d l)[k] = { l[k] with distance := (clampFrom d l)[k].distance } := by
  induction l generalizing d k with
  | nil => cases hk
  | cons m rest ih =>
    cases k with
    | zero => simp
    | succ k => simpa using ih (max d m.distance) k (by simpa using hk) (by simpa using hk)

theorem clampOrder_changes_only_distance (l : List Marker) (k : Nat) (hk : k < l.length)
    (hc : k < (clampOrder l).length) :
    (clampOrder l)[k] = { l[k] with distance := (clampOrder l)[k].distance } := by
  cases l with
  | nil => cases hk
  | cons m rest =>
    cases k with
    | zero => rfl
    | succ k => exact clampFrom_changes_only_distance m.distance rest k (by simpa using hk) (by simpa using hk)

/-- Handing on the greater of two distances loses none of what the markers behind could be raised to. -/
theorem isGreatest_cons_cons_of_max {a b g : Int} {l : List Int} (h : IsGreatest {x | x ∈ max a b :: l} g) :
    IsGreatest {x | x ∈ a :: b :: l} g := by
  obtain ⟨hmem, hub⟩ := h
  have hmax : max a b ≤ g := hub List.mem_cons_self
  constructor
  · obtain rfl | hl := List.mem_cons.mp hmem
    · rcases max_choice a b with h | h <;> simp [h]
    · simp [hl]
  · intro x hx
    obtain rfl | rfl | hl : x = a ∨ x = b ∨ x ∈ l := by simpa using hx
    · exact (le_max_left _ _).trans hmax
    · exact (le_max_right _ _).trans hmax
    · exact hub (List.mem_cons_of_mem _ hl)

theorem clampFrom_distance_isGreatest (d : Int) (l : List Marker) (k : Nat) (hc : k < (clampFrom d l).length) :
    IsGreatest {x | x ∈ d :: (l.take (k + 1)).map Marker.distance} (clampFrom d l)[k].distance := by
  induction l generalizing d k with
  | nil => cases hc
  | cons m rest ih =>
    apply isGreatest_cons_cons_of_max
    cases k with
    | zero => simp
    | succ k => simpa using ih (max d m.distance) k (by simpa using hc)

/-- R43: each clamped distance is the greatest of those at or ahead of its place. -/
theorem clampOrder_distance_isGreatest (l : List Marker) (k : Nat) (hc : k < (clampOrder l).length) :
    IsGreatest {x | x ∈ (l.take (k + 1)).map Marker.distance} (clampOrder l)[k].distance := by
  cases l with
  | nil => cases hc
  | cons m rest =>
    cases k with
    | zero => simp
    | succ k => simpa using clampFrom_distance_isGreatest m.distance rest k (by simpa using hc)

theorem mem_distances_upto_iff {l : List Marker} {k : Nat} {x : Int} :
    x ∈ (l.take (k + 1)).map Marker.distance ↔ ∃ (j : Nat) (_ : j < l.length), j ≤ k ∧ x = l[j].distance := by
  simp only [List.mem_map, List.mem_take_iff_getElem]
  constructor
  · rintro ⟨_, ⟨j, hj, rfl⟩, rfl⟩
    exact ⟨j, by omega, by omega, rfl⟩
  · rintro ⟨j, hj, hjk, rfl⟩
    exact ⟨l[j], ⟨j, by omega, rfl⟩, rfl⟩

theorem clampFrom_of_frontFirst {d : Int} {l : List Marker} (hd : ∀ x ∈ l, d ≤ x.distance) (hl : FrontFirst l) :
    clampFrom d l = l := by
  induction l generalizing d with
  | nil => rfl
  | cons m rest ih =>
    obtain ⟨hm, hrest⟩ := List.pairwise_cons.mp hl
    rw [clampFrom_cons, max_eq_right (hd m List.mem_cons_self), ih hm hrest]

/-- R43: the clamp leaves an ordered list as it is. -/
theorem clampOrder_of_frontFirst {l : List Marker} (hl : FrontFirst l) : clampOrder l = l := by
  cases l with
  | nil => rfl
  | cons m rest =>
    obtain ⟨hm, hrest⟩ := List.pairwise_cons.mp hl
    rw [clampOrder_cons, clampFrom_of_frontFirst hm hrest]

end OrderClamp

section Insertion

@[simp] theorem insertMarker_nil (m : Marker) : insertMarker m [] = [m] := rfl

theorem insertMarker_cons_of_some_not_further {m x : Marker} {xs : List Marker}
    (h : ∃ y ∈ x :: xs, y.distance ≤ m.distance) : insertMarker m (x :: xs) = x :: insertMarker m xs :=
  if_pos (by simpa using h)

theorem insertMarker_cons_of_all_further {m x : Marker} {xs : List Marker}
    (h : ∀ y ∈ x :: xs, m.distance < y.distance) : insertMarker m (x :: xs) = m :: x :: xs :=
  if_neg (by simpa using h)

/-- A marker put before the nearer part keeps the split, as long as some marker of the whole is not further away: where the
nearer part was empty, it is that one. -/
theorem SplitsAt.cons {d : Int} {x : Marker} {ahead behind : List Marker} (h : SplitsAt d ahead behind)
    (hex : ∃ y ∈ x :: (ahead ++ behind), y.distance ≤ d) : SplitsAt d (x :: ahead) behind where
  behind_further := h.behind_further
  last_not_further z hz := by
    cases ahead with
    | nil =>
      obtain rfl : x = z := by simpa using hz
      obtain ⟨y, hy, hyd⟩ := hex
      obtain rfl | hy := List.mem_cons.mp hy
      · exact hyd
      · exact absurd hyd (not_le.mpr (h.behind_further y hy))
    | cons a as => exact h.last_not_further z (by simpa using hz)

/-- R38: the new marker goes where the list splits at its distance. -/
theorem insertMarker_splits (m : Marker) (l : List Marker) :
    ∃ ahead behind, l = ahead ++ behind ∧ insertMarker m l = ahead ++ m :: behind ∧
      SplitsAt m.distance ahead behind := by
  induction l with
  | nil => exact ⟨[], [], rfl, rfl, by simp, by simp⟩
  | cons x xs ih =>
    by_cases hex : ∃ y ∈ x :: xs, y.distance ≤ m.distance
    · obtain ⟨ahead, behind, rfl, hins, hsplit⟩ := ih
      exact ⟨x :: ahead, behind, rfl, by rw [insertMarker_cons_of_some_not_further hex, hins]; rfl,
        hsplit.cons hex⟩
    · have hall : ∀ y ∈ x :: xs, m.distance < y.distance := by simpa using hex
      exact ⟨[], x :: xs, rfl, insertMarker_cons_of_all_further hall, hall, by simp⟩

/-- In an ordered nearer part, what holds of the last marker holds of them all. -/
theorem SplitsAt.ahead_not_further {d : Int} {ahead behind : List Marker} (h : SplitsAt d ahead behind)
    (hl : FrontFirst ahead) : ∀ x ∈ ahead, x.distance ≤ d := by
  obtain rfl | ⟨front, last, rfl⟩ := List.eq_nil_or_concat' ahead
  · simp
  · have hlast : last.distance ≤ d := h.last_not_further last (by simp)
    obtain ⟨-, -, hfront⟩ := List.pairwise_append.mp hl
    intro x hx
    obtain hx | hx := List.mem_append.mp hx
    · exact (hfront x hx last (by simp)).trans hlast
    · rwa [List.mem_singleton.mp hx]

theorem SplitsAt.frontFirst_insert {m : Marker} {ahead behind : List Marker} (h : SplitsAt m.distance ahead behind)
    (hl : FrontFirst (ahead ++ behind)) : FrontFirst (ahead ++ m :: behind) := by
  obtain ⟨hahead, hbehind, hacross⟩ := List.pairwise_append.mp hl
  refine List.pairwise_append.mpr ⟨hahead, List.pairwise_cons.mpr ⟨fun y hy => (h.behind_further y hy).le, hbehind⟩, ?_⟩
  intro x hx y hy
  obtain rfl | hy := List.mem_cons.mp hy
  · exact h.ahead_not_further hahead x hx
  · exact hacross x hx y hy

/-- R29, R38: insertion keeps the list ordered. -/
theorem insertMarker_frontFirst (m : Marker) {l : List Marker} (hl : FrontFirst l) : FrontFirst (insertMarker m l) := by
  obtain ⟨ahead, behind, rfl, hins, hsplit⟩ := insertMarker_splits m l
  exact hins ▸ hsplit.frontFirst_insert hl

end Insertion

/-- Settles O27: the clamp's part by its running maximum, insertion's part by the split at the new marker's distance. -/
theorem markersKeepTheirPlaces : Obligations.MarkersKeepTheirPlaces := by
  refine ⟨fun l k hk hc => ?_, fun m l => ?_⟩
  · obtain ⟨hmem, hub⟩ := clampOrder_distance_isGreatest l k hc
    exact ⟨clampOrder_length l, clampOrder_changes_only_distance l k hk hc,
      fun j hj hjk => hub (mem_distances_upto_iff.mpr ⟨j, hj, hjk, rfl⟩),
      mem_distances_upto_iff.mp hmem⟩
  · obtain ⟨ahead, behind, hl, hins, hsplit⟩ := insertMarker_splits m l
    exact ⟨ahead, behind, hl, hins, hsplit.behind_further, hsplit.last_not_further, fun hord =>
      have hord' := insertMarker_frontFirst m hord
      ⟨hord', clampOrder_of_frontFirst hord'⟩⟩

end Sys2Proof.Machine
end

section
/-! PROOFS. Rounding to the nearest integer, ties away from zero (00 5.2): its two halves, mirrored by oddness; the composition
of two factors (R74) rests on it, and O34 is assembled from the two. -/

namespace Sys2Proof.Machine

section Rounding

/-- 00 5.2: on a non-negative number the rounding is one floor division. -/
theorem roundInt_of_nonneg {n : Int} (hn : 0 ≤ n) (d : Nat) : roundInt n d = (2 * n + d) / (2 * d) := by
  lift n to Nat using hn
  simp [roundInt, roundNat]

@[simp] theorem roundInt_zero (d : Nat) : roundInt 0 d = 0 := by
  rw [roundInt_of_nonneg le_rfl]
  obtain rfl | hd := Nat.eq_zero_or_pos d
  · simp
  · exact Int.ediv_eq_zero_of_lt (by omega) (by omega)

/-- The rounding is odd, so a fact about a non-negative quotient has its mirror. -/
@[simp] theorem roundInt_neg (n : Int) (d : Nat) : roundInt (-n) d = -roundInt n d := by
  obtain hn | rfl | hn := lt_trichotomy n 0
  · simp [roundInt, hn.le, hn.not_ge]
  · simp
  · simp [roundInt, hn.le, hn.not_ge]

/-- On the non-negative side the lower half is included: there a tie goes up. -/
theorem roundInt_eq_of_nonneg {n k : Int} {d : Nat} (hn : 0 ≤ n) (hlow : 2 * d * k - d ≤ 2 * n)
    (hhigh : 2 * n < 2 * d * k + d) :
    roundInt n d = k := by
  rw [roundInt_of_nonneg hn, Int.ediv_eq_iff_of_pos (by omega)]
  constructor <;> linarith

/-- On the other side the upper half is included: there a tie goes down. -/
theorem roundInt_eq_of_nonpos {n k : Int} {d : Nat} (hn : n ≤ 0) (hlow : 2 * d * k - d < 2 * n)
    (hhigh : 2 * n ≤ 2 * d * k + d) :
    roundInt n d = k := by
  have h : roundInt (-n) d = -k := roundInt_eq_of_nonneg (by omega) (by linarith) (by linarith)
  simpa using h

theorem roundInt_eq_of_nearest {n k : Int} {d : Nat} (hlow : 2 * d * k - d < 2 * n) (hhigh : 2 * n < 2 * d * k + d) :
    roundInt n d = k := by
  obtain hn | hn := le_total 0 n
  · exact roundInt_eq_of_nonneg hn hlow.le hhigh
  · exact roundInt_eq_of_nonpos hn hlow hhigh.le

theorem roundInt_tie_of_nonneg {n k : Int} {d : Nat} (hd : 0 < d) (hk : 0 ≤ k) (h : 2 * n = 2 * d * k + d) :
    roundInt n d = k + 1 := by
  have hdk : 0 ≤ d * k := by positivity
  exact roundInt_eq_of_nonneg (by linarith) (by linarith) (by linarith)

theorem roundInt_tie_of_nonpos {n k : Int} {d : Nat} (hd : 0 < d) (hk : k ≤ 0) (h : 2 * n = 2 * d * k - d) :
    roundInt n d = k - 1 := by
  have hneg : roundInt (-n) d = -k + 1 := roundInt_tie_of_nonneg hd (by omega) (by linarith)
  rw [roundInt_neg] at hneg
  omega

end Rounding

section Composition

theorem compose_comm (a b : Int) : compose a b = compose b a := by
  simp only [compose, Int.add_comm a, Int.mul_comm a]

@[simp] theorem compose_zero_left (b : Int) : compose 0 b = b := by simp [compose]

theorem compose_eq {a b k : Int} (h : roundInt (a * b) 1000000 = k) : compose a b = a + b + k := by rw [compose, h]

end Composition

/-- Settles O34: commutativity and the unit from the formula of R74, the three rounding clauses from those of `roundInt` at a · b. -/
theorem compositionRoundsOnce : Obligations.CompositionRoundsOnce := fun a b =>
  ⟨compose_comm a b, compose_zero_left b,
    fun _ hhigh hlow => compose_eq (roundInt_eq_of_nearest hlow hhigh),
    fun _ hk htie => compose_eq (roundInt_tie_of_nonneg (by decide) hk htie),
    fun _ hk htie => compose_eq (roundInt_tie_of_nonpos (by decide) hk htie)⟩

end Sys2Proof.Machine
end

section
/-! PROOFS. The Schedule Store at a setup frame: what delivery to a setup station's role comes to, how settings of sticky flags
add up, the staging fields and the pairs that amend them (R94, R95), and the record a tag finds (R91, R106). O48 and O50 are
assembled from these. -/

namespace Sys2Proof.Machine

section Delivery

theorem fate_of_delivers {s : State} {k : FrameKind} {sender : BitVec 5} {role : Role} (h : Delivers s k sender role)
    (hopen : role ≠ .closed) (hfit : misfit s k role = false) : fate s k sender = .delivered := by
  obtain ⟨-, hconf, hrole⟩ := h
  cases role with
  | closed => exact absurd rfl hopen
  | upstream | downstream | setup => simp [fate, hconf, hrole, hfit]

/-- R150, R165: a frame whose role fits its kind acts on the station that has reported the clean receive. -/
theorem receiveFrame_of_delivers {s : State} {k : FrameKind} {sender : BitVec 5} {role : Role}
    (h : Delivers s k sender role) (hopen : role ≠ .closed) (hfit : misfit s k role = false) (fin : FrameEnd)
    (act : State → State) : receiveFrame k fin sender act (s.setClock fin.now) = act (Heard s fin) := by
  have hhears : hearsSound (s.setClock fin.now) = true := (hearsSound_iff _).mpr h.1
  have hfate : fate (s.setClock fin.now) k sender = .delivered := fate_of_delivers h hopen hfit
  simp [receiveFrame, hhears, hfate]

variable {s : State} {sender : BitVec 5}

theorem exec_setupFields_delivered (h : Delivers s .setupFields sender .setup) (fin : FrameEnd) (first second : FieldPair) :
    exec (.setupFields fin sender first second) s = .next (takePair second (takePair first (Heard s fin))) :=
  congrArg _ (receiveFrame_of_delivers h nofun rfl fin _)

theorem exec_setupCancel_delivered (h : Delivers s .setupCancel sender .setup) (fin : FrameEnd) (tag : Tag) :
    exec (.setupCancel fin sender tag) s = .next (cancel tag (Heard s fin)) :=
  congrArg _ (receiveFrame_of_delivers h nofun rfl fin _)

theorem exec_setupClear_delivered (h : Delivers s .setupClear sender .setup) (fin : FrameEnd) :
    exec (.setupClear fin sender) s = .next (clearStaging (Heard s fin)) :=
  congrArg _ (receiveFrame_of_delivers h nofun rfl fin _)

end Delivery

section FlagSettings

variable {s t u : State} {now : Instant} {p q : StickyFlag → Bool}

/-- Two successive settings at one instant set what either sets. -/
theorem SetsFlags.trans (hst : SetsFlags s t now p) (htu : SetsFlags t u now q) :
    SetsFlags s u now fun f => p f || q f := by
  intro f
  have hst := hst f
  have htu := htu f
  cases hq : q f with
  | true => simpa [hq] using htu
  | false =>
    have hkeep : u.stickyMark f = t.stickyMark f := by simpa [hq] using htu
    simpa [hq, hkeep] using hst

theorem SetsFlags.congr (h : SetsFlags s t now p) (hpq : ∀ f, q f = p f) : SetsFlags s t now q :=
  (funext hpq : q = p) ▸ h

theorem setsFlags_setSticky (f : StickyFlag) (s : State) : SetsFlags s (setSticky f s) s.clock fun g => g == f := by
  intro g
  by_cases h : g = f <;> simp [h]

theorem setsFlags_of_rep (h : t.rep = s.rep) : SetsFlags s t now fun _ => false :=
  fun f => by simpa using stickyMark_of_rep h f

theorem setsFlags_heard (s : State) (fin : FrameEnd) : SetsFlags s (Heard s fin) fin.now fun _ => false :=
  setsFlags_of_rep (by simp)

end FlagSettings

section StagingFields

/-- R94: the id by which a pair names a field. -/
def SetupField.id : SetupField → Nat
  | .vTop => 0x01
  | .h k => 0x10 + k
  | .f k => 0x21 + k
  | .theta k => 0x31 + k
  | .kp => 0x40
  | .ki => 0x41
  | .boost => 0x42
  | .impactTime => 0x43
  | .lLow => 0x44

theorem id_of_fieldOfId {id : Byte} {fld : SetupField} (h : fieldOfId id = some fld) : id.toNat = fld.id := by
  unfold fieldOfId at h
  dsimp only at h
  split_ifs at h <;> cases h <;> simp only [SetupField.id] <;> omega

theorem fieldOfId_of_id {id : Byte} {fld : SetupField} (h : id.toNat = fld.id) : fieldOfId id = some fld := by
  cases fld
  case h k =>
    have h : id.toNat = 0x10 + k := h
    rw [fieldOfId, if_neg (by omega), dif_pos (by omega)]
    simp [h]
  case f k =>
    have h : id.toNat = 0x21 + k := h
    rw [fieldOfId, if_neg (by omega), dif_neg (by omega), dif_pos (by omega)]
    simp [h]
  case theta k =>
    have h : id.toNat = 0x31 + k := h
    rw [fieldOfId, if_neg (by omega), dif_neg (by omega), dif_neg (by omega), dif_pos (by omega)]
    simp [h]
  all_goals simp [fieldOfId, h, SetupField.id]

/-- R94: each id names one field, and an id of no field none. -/
theorem fieldOfId_eq_some_iff (id : Byte) (fld : SetupField) : fieldOfId id = some fld ↔ id.toNat = fld.id :=
  ⟨id_of_fieldOfId, fieldOfId_of_id⟩

theorem getD_set_eq_ite {n : Nat} (v : Vector Nat n) (k : Fin n) (x i : Nat) :
    (v.set k x).toList.getD i 0 = if i = k then x else v.toList.getD i 0 := by
  by_cases h : i = k
  · subst h; simp
  · have hne : k.val ≠ i := Ne.symm h
    simp [h, hne, List.getD]

variable (v : Values) (x i : Nat)

theorem setField_hAt (k : Fin 9) : (v.setField (.h k) x).hAt i = if i = k then x else v.hAt i :=
  getD_set_eq_ite v.h k x i

theorem setField_fAt (k : Fin 8) (hi : 1 ≤ i) :
    (v.setField (.f k) x).fAt i = if i = k + 1 then x else v.fAt i := by
  have hidx : i - 1 = k ↔ i = k + 1 := by omega
  simp only [Values.fAt, Values.setField, getD_set_eq_ite, hidx]

theorem setField_thetaAt (k : Fin 7) (hi : 1 ≤ i) :
    (v.setField (.theta k) x).thetaAt i = if i = k + 1 then x else v.thetaAt i := by
  have hidx : i - 1 = k ↔ i = k + 1 := by omega
  simp only [Values.thetaAt, Values.setField, getD_set_eq_ite, hidx]

end StagingFields

section Pairs

/-- R94: a value of the field's accepted range. -/
def SetupField.accepts (fld : SetupField) (x : Nat) : Bool := decide (fld.low ≤ x) && decide (x ≤ fld.high)

theorem accepts_iff (fld : SetupField) (x : Nat) : fld.accepts x = true ↔ fld.low ≤ x ∧ x ≤ fld.high := by
  simp [SetupField.accepts]

/-- R95: the pair is clamped. -/
def pairAdjusts (p : FieldPair) : Bool := pairOutcome p == .clamped

/-- R95: the pair is refused or ignored. -/
def pairRefuses (p : FieldPair) : Bool := pairOutcome p == .refused || pairOutcome p == .ignored

/-- A value outside a range is clamped to the bound it passes. -/
theorem clampNat_of_not_accepts {fld : SetupField} {x : Nat} (h : fld.accepts x = false) :
    clampNat fld.low fld.high x = if x < fld.low then fld.low else fld.high := by
  have hout : ¬(fld.low ≤ x ∧ x ≤ fld.high) := by simp [← accepts_iff, h]
  unfold clampNat
  split_ifs with hlow hhigh
  · rfl
  · rfl
  · omega

variable {p : FieldPair}

theorem applyPair_of_unknown (h : fieldOfId p.id = none) (v : Values) : applyPair v p = v := by
  simp [applyPair, h]

theorem pairAdjusts_of_unknown (h : fieldOfId p.id = none) : pairAdjusts p = false := by
  simp [pairAdjusts, pairOutcome, h]

theorem pairRefuses_of_unknown (h : fieldOfId p.id = none) : pairRefuses p = true := by
  simp [pairRefuses, pairOutcome, h]

variable {fld : SetupField}

theorem pairOutcome_of_known (h : fieldOfId p.id = some fld) :
    pairOutcome p = if fld.accepts p.value.toNat then .accepted else if fld.refuses then .refused else .clamped := by
  simp [pairOutcome, h, accepts_iff]

theorem pairAdjusts_of_known (h : fieldOfId p.id = some fld) :
    pairAdjusts p = (!fld.refuses && !fld.accepts p.value.toNat) := by
  rw [pairAdjusts, pairOutcome_of_known h]
  cases fld.accepts p.value.toNat <;> cases fld.refuses <;> rfl

theorem pairRefuses_of_known (h : fieldOfId p.id = some fld) :
    pairRefuses p = (fld.refuses && !fld.accepts p.value.toNat) := by
  rw [pairRefuses, pairOutcome_of_known h]
  cases fld.accepts p.value.toNat <;> cases fld.refuses <;> rfl

/-- R95: the staging record after a pair that names a field. -/
theorem applyPair_of_known (h : fieldOfId p.id = some fld) (v : Values) :
    applyPair v p =
      if fld.accepts p.value.toNat then v.setField fld p.value.toNat
      else if fld.refuses then v
      else v.setField fld (if p.value.toNat < fld.low then fld.low else fld.high) := by
  simp only [applyPair, h, pairOutcome_of_known h]
  cases hin : fld.accepts p.value.toNat with
  | true => rfl
  | false => cases fld.refuses <;> simp [clampNat_of_not_accepts hin]

@[simp] theorem takePair_store (p : FieldPair) (s : State) :
    (takePair p s).store = { s.store with staging := applyPair s.store.staging p } := by
  unfold takePair
  cases pairOutcome p <;> simp

@[simp] theorem takePair_reports (p : FieldPair) (s : State) :
    (takePair p s).rep.lastAlarm = s.rep.lastAlarm ∧ (takePair p s).rep.periodFrom = s.rep.periodFrom := by
  unfold takePair
  cases pairOutcome p <;> simp

/-- R95: a pair sets the flag of its outcome and no other. -/
theorem setsFlags_takePair {s : State} {now : Instant} (hclock : s.clock = now) (p : FieldPair) :
    SetsFlags s (takePair p s) now fun f =>
      f == .fieldAdjusted && pairAdjusts p || f == .fieldRefused && pairRefuses p := by
  subst hclock
  unfold takePair
  cases ho : pairOutcome p with
  | accepted => exact (setsFlags_of_rep rfl).congr (by simp [pairAdjusts, pairRefuses, ho])
  | clamped => exact (setsFlags_setSticky .fieldAdjusted (s.setStore _)).congr (by simp [pairAdjusts, pairRefuses, ho])
  | refused | ignored =>
    exact (setsFlags_setSticky .fieldRefused (s.setStore _)).congr (by simp [pairAdjusts, pairRefuses, ho])

end Pairs

section Records

theorem mem_of_findRecord {table : List Record} {tag : Tag} {r : Record} (h : findRecord table tag = some r) :
    r ∈ table ∧ r.tag = tag := by
  unfold findRecord at h
  split_ifs at h
  exact ⟨List.mem_of_find?_eq_some h, by simpa using List.find?_some h⟩

/-- R91, R106: in a lawful table the record a tag finds is the one that bears it. -/
theorem findRecord_of_mem {table : List Record} (h : TableLawful table) {r : Record} (hr : r ∈ table) :
    findRecord table r.tag = some r := by
  obtain ⟨-, hnodup, hzero⟩ := h
  cases hfind : findRecord table r.tag with
  | none =>
    have htag : r.tag ≠ 0#8 := hzero r hr
    have hfree : ∀ x ∈ table, x.tag ≠ r.tag := by simpa [findRecord, htag] using hfind
    exact absurd rfl (hfree r hr)
  | some x =>
    obtain ⟨hx, htag⟩ := mem_of_findRecord hfind
    rw [List.inj_on_of_nodup_map hnodup hx hr htag]

theorem findRecord_filter_ne (table : List Record) (tag : Tag) :
    findRecord (table.filter fun r => r.tag != tag) tag = none := by
  simp [findRecord]

theorem lookup_of_findRecord_none {s : State} {tag : Tag} (h : findRecord s.store.table tag = none) :
    (s.lookup tag).substituted = true := by
  unfold State.lookup
  rw [h]
  cases s.store.table.getLast? <;> rfl

/-- R106: with no record in the table a lookup follows staging. -/
theorem lookup_values_of_nil {s : State} (h : s.store.table = []) (tag : Tag) :
    (s.lookup tag).values = s.store.staging := by
  simp [State.lookup, findRecord, h]

variable {s : State} {tag : Tag}

theorem cancel_of_waiting {r : Record} (h : findRecord s.store.table tag = some r) (hr : r.state = .waiting) :
    cancel tag s = s.setStore { s.store with table := s.store.table.filter fun r => r.tag != tag } := by
  simp [cancel, h, hr]

/-- R101: a cancel that finds no WAITING record is refused. -/
theorem cancel_of_none_waiting (h : ∀ r, findRecord s.store.table tag = some r → r.state = .entered) :
    cancel tag s = setSticky .closeRefused s := by
  unfold cancel
  cases hfind : findRecord s.store.table tag with
  | none => rfl
  | some r => simp [h r hfind]

end Records

/-- Settles O48: the table of R94 from `fieldOfId` and `setField`; for a frame, the statement's amendment and the flags of a pair
are the model's, and the two pairs follow one another. -/
theorem setupFieldsAmendStaging : Obligations.SetupFieldsAmendStaging := by
  refine ⟨fieldOfId_eq_some_iff, fun fld => by cases fld <;> rfl, fun v x i =>
    ⟨setField_hAt v x i, setField_fAt v x i, setField_thetaAt v x i, fun _ => rfl, fun _ => rfl, fun _ => rfl, rfl, rfl, rfl,
      rfl, rfl, rfl⟩, ?_⟩
  intro s fin sender first second inRange amend adjusts refuses h
  have hamend (v : Values) (p : FieldPair) : amend v p = applyPair v p := by
    dsimp only [amend]
    cases hfld : fieldOfId p.id with
    | none => rw [applyPair_of_unknown hfld]
    | some fld =>
      rw [applyPair_of_known hfld]
      cases fld <;> rfl
  have hadjusts (p : FieldPair) : adjusts p = pairAdjusts p := by
    dsimp only [adjusts]
    cases hfld : fieldOfId p.id with
    | none => rw [pairAdjusts_of_unknown hfld]
    | some fld =>
      rw [pairAdjusts_of_known hfld]
      cases fld <;> rfl
  have hrefuses (p : FieldPair) : refuses p = pairRefuses p := by
    dsimp only [refuses]
    cases hfld : fieldOfId p.id with
    | none => rw [pairRefuses_of_unknown hfld]
    | some fld =>
      rw [pairRefuses_of_known hfld]
      cases fld <;> rfl
  refine ⟨_, exec_setupFields_delivered h fin first second, ?_, ?_, ?_⟩
  · simp [hamend]
  · have hflags := ((setsFlags_heard s fin).trans (setsFlags_takePair (by simp) first)).trans
      (setsFlags_takePair (by simp) second)
    refine hflags.congr fun f => ?_
    simp only [hadjusts, hrefuses, Bool.and_or_distrib_left, Bool.false_or]
    ac_rfl
  · simp [KeepsReports, SameQueue]

/-- Settles O50: in a lawful table the record that the cancel finds is the one bearing its tag; the clear by the lookup in an empty
table. -/
theorem cancelAndClear : Obligations.CancelAndClear := by
  refine ⟨fun s fin sender tag h hlaw => ⟨?_, fun hentered => ?_⟩, fun s fin sender h => ?_⟩
  · rintro ⟨r, hr, rfl, hwaiting⟩ u
    have hfind : findRecord u.store.table r.tag = none := findRecord_filter_ne s.store.table r.tag
    refine ⟨?_, hfind, lookup_of_findRecord_none hfind⟩
    rw [exec_setupCancel_delivered h, cancel_of_waiting (by simpa using findRecord_of_mem hlaw hr) hwaiting]
    simp [u]
  · have hcancel : cancel tag (Heard s fin) = setSticky .closeRefused (Heard s fin) :=
      cancel_of_none_waiting fun r hfind => by
        obtain ⟨hr, htag⟩ := mem_of_findRecord hfind
        exact hentered r (by simpa using hr) htag
    refine ⟨_, exec_setupCancel_delivered h fin tag, ?_⟩
    rw [hcancel]
    have hflags := (setsFlags_heard s fin).trans (setsFlags_setSticky .closeRefused (Heard s fin))
    exact ⟨by simp, hflags, by simp [KeepsReports, SameQueue]⟩
  · intro u
    have hu : clearStaging (Heard s fin) = u := by simp [clearStaging, u]
    exact ⟨hu ▸ exec_setupClear_delivered h fin, fun hnil => lookup_values_of_nil hnil⟩

end Sys2Proof.Machine
end

section
/-! PROOFS. What a step can do, said once: each command leaves one of the outcomes of `Does`, so that an invariant of the
machine is a case for each of them. O1 and O2 come with it. -/

namespace Sys2Proof.Machine

/-- The state a command leaves; `exec_eq` ties it to `exec`. -/
def after (c : Instr) (s : State) : State :=
  match exec c s with
  | .next t => t
  | .fault _ | .refused _ => s

theorem exec_eq (c : Instr) (s : State) : exec c s = .next (after c s) := by cases c <;> rfl

theorem after_eq_of_exec {c : Instr} {s t : State} (h : exec c s = .next t) : after c s = t :=
  Host.Outcome.next.inj ((exec_eq c s).symm.trans h)

/-- What the events of the Link Controller, the Transmit Queue and Error Confinement can leave of a station (ch. 8 to 10). -/
inductive LinkDoes (s : State) : State → Prop
  | status (h : periodDone 100000 s.clock s.rep.periodFrom = true) :
      LinkDoes s (offer (.status (statusData (catchUpFlaw s)))
        ((catchUpFlaw s).setRep { (catchUpFlaw s).rep with periodFrom := nextPeriod 100000 (catchUpFlaw s).rep.periodFrom }))
  | ageTick : LinkDoes s (s.setTxq { s.txq with
      slots := mapSlots (Option.map fun x : Slot => if x.inTransmission then x else markSaturated s.clock x) s.txq.slots })
  | heard (marker : Bool) (h : hearsSound s = true) : LinkDoes s (receiveClean marker s)
  | stray (marker : Bool) (h : hearsSound s = true) : LinkDoes s (countStray (receiveClean marker s))
  | endInError (drives : Bool) (read : ReadFrame) (h : hears s = true) :
      LinkDoes s ((endInError drives read s).setEc s.ec.receiveError)
  | holdError (read : ReadFrame) (h : hears s = true) : LinkDoes s (holdError read s)
  | rejected (run : Nat) (h : hearsSound s = true) : LinkDoes s (endReception false run s)
  | lineIdle (quiet : QuietLine) (h : hears s = true) : LinkDoes s (readRecessive quiet s)
  | contest (h : mayContest s = true) : LinkDoes s (startContest s)
  | reception (frame : List Bool) (h : hears s = true) : LinkDoes s (startReception 0 frame s)
  | lost (a : Attempt) (bits : Nat) (frame : List Bool) (h : s.link.attempt = some a) :
      LinkDoes s (startReception bits frame
        ((settleLost a.slot s).setLink { (settleLost a.slot s).link with attempt := none }))
  | bitError (a : Attempt) (bits : Nat) (h : s.link.attempt = some a) :
      LinkDoes s (s.setLink { s.link with
        recessive := 0, recessiveAt := s.clock, carried := 0
        attempt := some { a with bits := bits, bitsAt := s.clock, breaking := true } })
  | failed (a : Attempt) (h : s.link.attempt = some a) :
      LinkDoes s (endAttempt (clearIfOffLink ((settleFailed a.slot (settleFlaw a (captureEnd a.breaking s))).setEc
        ((settleFailed a.slot (settleFlaw a (captureEnd a.breaking s))).ec.attemptFailed
          (settleFailed a.slot (settleFlaw a (captureEnd a.breaking s))).clock))))
  | succeeded (a : Attempt) (h : s.link.attempt = some a) :
      LinkDoes s (endAttempt ((settleSucceeded a.slot (settleFlaw a (captureEnd false s))).setEc
        (settleSucceeded a.slot (settleFlaw a (captureEnd false s))).ec.attemptSucceeded))
  | joined (h : s.ldr.phase = .running) (h' : s.ec.link = .joining) :
      LinkDoes s (s.setEc { s.ec with
        link := linkByCounts s.ec.txErrors s.ec.rxErrors, joinBits := quietBits, joinAt := s.clock
        silentTo := some s.clock })
  | span (h : s.ec.link = .offLink) : LinkDoes s (s.setEc (s.ec.spanDone s.clock))

/-- What a command can leave of a station, at the clock reading of the command; the markers move only where `expires` holds. -/
inductive DoesWhen (expires : Prop) (s : State) : State → Prop
  | idle : DoesWhen expires s s
  | link {t : State} (h : LinkDoes s t) : DoesWhen expires s t
  | draw (n : Nat) : DoesWhen expires s (s.setDraws n)
  | reset (n : Nat) : DoesWhen expires s (resetBlocks (s.setDraws n))
  | release (p : BitVec 3) (r : BitVec 2) (c : Bool) (h : s.ldr.phase = .held) : DoesWhen expires s (releaseReset p r c s)
  | giveLink (h : s.ldr.phase = .reading) : DoesWhen expires s (giveLink s)
  | configure (bytes : List Byte) (h : s.ldr.phase = .reading) (good : imageGood s.position bytes = true) :
      DoesWhen expires s (enterHoldIfActive (Machine.giveLink (Machine.configure (parseImage s.position bytes) s)))
  | force (f : Nat) (h : sampling s = true) : DoesWhen expires s (takeForce f s)
  | forceSilent (h : s.sens.forceStale = false) :
      DoesWhen expires s (sensorLost 1 (s.setSens { s.sens with forceStale := true, run := none }))
  | speedSample (x : Nat) : DoesWhen expires s (s.setSens { s.sens with speed := x, speedStale := false, speedAt := s.clock })
  | speedSilent : DoesWhen expires s (sensorLost 3 (s.setSens { s.sens with speedStale := true }))
  | angleSample (x : Nat) : DoesWhen expires s (s.setSens { s.sens with angle := some x, angleStale := false, angleAt := s.clock })
  | angleSilent : DoesWhen expires s (sensorLost 2 (s.setSens { s.sens with angleStale := true }))
  | hotMetal (level : Bool) : DoesWhen expires s (readHotMetal level s)
  | expiry (he : expires) (h : s.seq.stand ≠ .unconfigured) :
      DoesWhen expires s (predict (leadTail (openWindows (dropMissed (dropOverdue (advanceAll s))))))
  | looper : DoesWhen expires s (looperPeriod s)
  | speed : DoesWhen expires s (referenceStep (impactStep (factorStep (ageViews s))))
  | viewStale : DoesWhen expires s (ageViews s)
  | impactEnd (b : Bite) (h : s.seq.bite = some b) : DoesWhen expires s
      (s.setSeq { s.seq with bite := some (endImpact b s.impactTime) })
  | cascade : DoesWhen expires s (offer (cascadeFrame s) (s.setCas { s.cas with periodFrom := nextPeriod 4000 s.cas.periodFrom }))
  | wire (others : Bool) (lineAt : Instant) : DoesWhen expires s (s.setHold { s.hold with others := others, lineAt := lineAt })
  | lineActive (h : lineSettled s = true) :
      DoesWhen expires s (enterHoldIfActive (s.setHold { s.hold with filtered := true, timer := none, qualified := false }))
  | lineReleased (h : s.hold.filtered = true) :
      DoesWhen expires s (s.setHold { s.hold with filtered := false, timer := some s.clock, qualified := false })
  | qualified (h : qualificationDone s = true) :
      DoesWhen expires s (leaveHoldIfReady (s.setHold { s.hold with timer := none, qualified := true }))
  | headOn (marker : Bool) (sender : BitVec 5) (tag : Tag) (age : BitVec 16) (hs : hearsSound s = true)
      (h : fate s .headOn sender = .delivered) : DoesWhen expires s (headOnAction sender tag age (receiveClean marker s))
  | tailOff (marker : Bool) (sender : BitVec 5) (tag : Tag) (age : BitVec 16) (hs : hearsSound s = true)
      (h : fate s .tailOff sender = .delivered) : DoesWhen expires s (tailOffAction sender tag age (receiveClean marker s))
  | view (marker : Bool) (sender : BitVec 5) (v : View) (hs : hearsSound s = true)
      (h : fate s .cascade sender = .delivered) : DoesWhen expires s (cascadeAction sender v (receiveClean marker s))
  | fields (marker : Bool) (first second : FieldPair) (hs : hearsSound s = true) :
      DoesWhen expires s (takePair second (takePair first (receiveClean marker s)))
  | close (marker : Bool) (tag : Tag) (hs : hearsSound s = true) : DoesWhen expires s (close tag (receiveClean marker s))
  | cancel (marker : Bool) (tag : Tag) (hs : hearsSound s = true) : DoesWhen expires s (cancel tag (receiveClean marker s))
  | clear (marker : Bool) (hs : hearsSound s = true) : DoesWhen expires s (clearStaging (receiveClean marker s))
  | endDrive (marker : Bool) (hs : hearsSound s = true) : DoesWhen expires s (setDrive false (receiveClean marker s))
  | restart (marker : Bool) (target : Byte) (hs : hearsSound s = true) :
      DoesWhen expires s (restartStation target (receiveClean marker s))
  | drill (marker : Bool) (target kind : Byte) (hs : hearsSound s = true) (h : s.seq.stand ≠ .unconfigured) :
      DoesWhen expires s (takeDrill target kind (receiveClean marker s))

/-- What some command can leave of a station. -/
abbrev Does (s : State) : State → Prop := DoesWhen True s

theorem DoesWhen.of_ite {p : Prop} {s t u : State} {c : Prop} [Decidable c] (ht : c → DoesWhen p s t)
    (hu : ¬c → DoesWhen p s u) : DoesWhen p s (if c then t else u) := by
  split
  · exact ht ‹_›
  · exact hu ‹_›

/-- A condition that does not hold leaves the command only its clock reading (log entry 4). -/
theorem DoesWhen.of_cond {p : Prop} {s t : State} {c : Prop} [Decidable c] (ht : c → DoesWhen p s t) :
    DoesWhen p s (if c then t else s) :=
  .of_ite ht fun _ => .idle

/-- R150, R165, R167: a clean frame is ignored, counted as stray, or acted on. -/
theorem DoesWhen.of_receiveFrame {p : Prop} {s : State} {k : FrameKind} {fin : FrameEnd} {sender : BitVec 5} {act : State → State}
    (h : hearsSound s = true → fate s k sender = .delivered → DoesWhen p s (act (receiveClean fin.marker s))) :
    DoesWhen p s (receiveFrame k fin sender act s) := by
  refine .of_cond fun hs => ?_
  cases hf : fate s k sender with
  | ignored => exact .link (.heard _ hs)
  | stray => exact .link (.stray _ hs)
  | delivered => exact h hs hf

theorem fate_unconfigured {s : State} {k : FrameKind} {sender : BitVec 5} (h : s.seq.stand = .unconfigured)
    (hk : k ≠ .restart) : fate s k sender = .ignored := by
  simp [fate, h, hk]

/-- Only a RESTART is acted on in UNCONFIGURED (R165, R180). -/
theorem configured_of_delivered {s : State} {k : FrameKind} {sender : BitVec 5} (h : fate s k sender = .delivered)
    (hk : k ≠ .restart) : s.seq.stand ≠ .unconfigured := fun hu => by
  rw [fate_unconfigured hu hk] at h
  cases h

/-- The inversion of a command: what it leaves is one of the outcomes of `DoesWhen`, at its clock reading, and only a
TRACKING_EXPIRY moves markers. -/
theorem after_doesWhen {p : Prop} (c : Instr) (s : State) (hp : ∀ now, c = .trackingExpiry now → p) :
    DoesWhen p (s.setClock c.now) (after c s) := by
  cases c
  case pinReset => exact .of_ite (fun _ => .reset _) fun _ => .draw _
  case resetRelease p r c => exact .of_cond (.release p r c)
  case configReadDone bytes =>
    exact .of_cond fun h => .of_ite (fun good => .configure bytes h (Bool.and_eq_true_iff.mp good).1) fun _ => .giveLink h
  case configReadTimeout => exact .of_cond fun h => .giveLink h.1
  case forceSample f => exact .of_cond (.force f)
  case forceStale =>
    refine .of_cond fun h => .forceSilent ?_
    simp only [Bool.and_eq_true, Bool.not_eq_true'] at h
    exact h.1.2
  case speedFeedbackSample => exact .of_cond fun _ => .speedSample _
  case speedFeedbackStale => exact .of_cond fun _ => .speedSilent
  case angleSample => exact .of_cond fun _ => .angleSample _
  case angleStale => exact .of_cond fun _ => .angleSilent
  case hotMetalEdge now =>
    refine .of_cond fun _ => ?_
    cases edgeDue (s.setClock now) with
    | some level => exact .hotMetal level
    | none => exact .idle
  case hotMetalReading high => exact .of_cond fun _ => .hotMetal high
  case trackingExpiry => exact .of_ite (fun _ => .idle) fun h => .expiry (hp _ rfl) h
  case looperPeriodExpiry => exact .looper
  case raiseTimeout | lowerTimeout => exact .of_cond fun _ => .looper
  case speedPeriodExpiry => exact .speed
  case viewStale => exact .viewStale
  case impactEnd now =>
    show DoesWhen _ (s.setClock now) (match s.seq.bite with | some b => _ | none => _)
    cases h : s.seq.bite with
    | some b => exact .impactEnd b h
    | none => exact .idle
  case cascadeFramePeriod => exact .of_cond fun _ => .cascade
  case statusFramePeriod => exact .of_cond fun h => .link (.status h)
  case noticeAgeTick => exact .link .ageTick
  case holdLineChange => exact .wire _ _
  case holdLineActive =>
    refine .of_cond fun h => .lineActive ?_
    simp only [Bool.and_eq_true] at h
    exact h.1.1
  case holdLineReleased => exact .of_cond fun h => .lineReleased (Bool.and_eq_true_iff.mp h).2
  case releaseQualified => exact .of_cond .qualified
  case upstreamHeadOn fin sender tag age | downstreamHeadOn fin sender tag age =>
    exact .of_receiveFrame (.headOn _ sender tag age)
  case upstreamTailOff fin sender tag age | downstreamTailOff fin sender tag age =>
    exact .of_receiveFrame (.tailOff _ sender tag age)
  case cascadeDelivered => exact .of_receiveFrame (.view _ _ _)
  case alarmReceived | statusReceived => exact .of_receiveFrame fun hs _ => .link (.heard _ hs)
  case setupFields fin sender first second =>
    exact .of_receiveFrame (act := fun s => takePair second (takePair first s)) fun hs _ => .fields _ _ _ hs
  case setupClose => exact .of_receiveFrame fun hs _ => .close _ _ hs
  case setupCancel => exact .of_receiveFrame fun hs _ => .cancel _ _ hs
  case setupClear => exact .of_receiveFrame fun hs _ => .clear _ hs
  case release => exact .of_receiveFrame fun hs _ => .endDrive _ hs
  case restart => exact .of_receiveFrame fun hs _ => .restart _ _ hs
  case drill => exact .of_receiveFrame fun hs h => .drill _ _ _ hs (configured_of_delivered h nofun)
  case malformedFrame =>
    exact .of_cond fun h => .of_ite (fun _ => .link (.heard _ (Bool.and_eq_true_iff.mp h).1))
      fun _ => .link (.stray _ (Bool.and_eq_true_iff.mp h).1)
  case receiveError =>
    exact .of_cond fun h => .of_ite (fun _ => .link (.endInError _ _ (Bool.and_eq_true_iff.mp h).1))
      fun _ => .link (.holdError _ (Bool.and_eq_true_iff.mp h).1)
  case frameRejected => exact .of_cond fun h => .link (.rejected _ (Bool.and_eq_true_iff.mp h).1)
  case lineIdle =>
    refine .of_cond fun h => .link (.lineIdle _ ?_)
    simp only [Bool.and_eq_true] at h
    exact h.1.1
  case contestStart => exact .of_cond fun h => .link (.contest h)
  case frameStart start =>
    exact .of_ite (fun h => .link (.contest h)) fun _ => .of_cond fun h => .link (.reception _ h)
  case arbitrationLost now lost =>
    show DoesWhen _ (s.setClock now) (match s.link.attempt with | some a => _ | none => _)
    cases h : s.link.attempt with
    | some a => exact .of_cond fun _ => .link (.lost a _ _ h)
    | none => exact .idle
  case bitError now bits =>
    show DoesWhen _ (s.setClock now) (match s.link.attempt with | some a => _ | none => _)
    cases h : s.link.attempt with
    | some a => exact .of_cond fun _ => .link (.bitError a bits h)
    | none => exact .idle
  case attemptFailed now =>
    show DoesWhen _ (s.setClock now) (match s.link.attempt with | some a => _ | none => _)
    cases h : s.link.attempt with
    | some a => exact .link (.failed a h)
    | none => exact .idle
  case attemptSucceeded now =>
    show DoesWhen _ (s.setClock now) (match s.link.attempt with | some a => _ | none => _)
    cases h : s.link.attempt with
    | some a => exact .of_ite (fun _ => .idle) fun _ => .link (.succeeded a h)
    | none => exact .idle
  case joiningEnd => exact .of_cond fun h => .link (.joined h.1 h.2.1)
  case offLinkIdleSpan => exact .of_cond fun h => .link (.span h.1)
  case offLinkRecovery => exact .of_cond fun h => .link (.span h.1)
  case frameIgnored => exact .of_cond fun h => .link (.heard _ (Bool.and_eq_true_iff.mp h).1)
  case strayFrame => exact .of_cond fun h => .link (.stray _ (Bool.and_eq_true_iff.mp h).1)

theorem after_does (c : Instr) (s : State) : Does (s.setClock c.now) (after c s) := after_doesWhen c s fun _ _ => trivial

/-- A predicate that reads neither the waiting commands nor the clock and that every outcome keeps is kept by every step. -/
theorem step_keeps {P : State → Prop} (hturn : ∀ s x y, P s → P ((s.setPending x).setClock y))
    (hdoes : ∀ s t, Does s t → P s → P t) {s t : State} (hs : P s) (h : step s = .next t) : P t := by
  unfold step at h
  cases hp : s.pending with
  | nil =>
    rw [hp] at h
    cases h
    exact hturn s s.pending (s.clock + 1) hs
  | cons c rest =>
    rw [hp] at h
    obtain rfl := after_eq_of_exec h
    exact hdoes _ _ (after_does c (s.setPending rest)) (hturn s rest c.now hs)

section Frames

@[simp] theorem captureEnd_frame (broken : Bool) (s : State) :
    (captureEnd broken s).pending = s.pending ∧ (captureEnd broken s).clock = s.clock ∧
    (captureEnd broken s).draws = s.draws ∧ (captureEnd broken s).ldr = s.ldr ∧ (captureEnd broken s).seq = s.seq ∧
    (captureEnd broken s).trk = s.trk ∧ (captureEnd broken s).lp = s.lp ∧ (captureEnd broken s).cas = s.cas ∧
    (captureEnd broken s).store = s.store ∧ (captureEnd broken s).sens = s.sens ∧
    (captureEnd broken s).hold = s.hold ∧ (captureEnd broken s).txq = s.txq ∧ (captureEnd broken s).ec = s.ec ∧
    (captureEnd broken s).rep = s.rep := by
  cases broken <;> simp [captureEnd]

@[simp] theorem clearIfOffLink_frame (s : State) :
    (clearIfOffLink s).pending = s.pending ∧ (clearIfOffLink s).clock = s.clock ∧
    (clearIfOffLink s).draws = s.draws ∧ (clearIfOffLink s).ldr = s.ldr ∧ (clearIfOffLink s).seq = s.seq ∧
    (clearIfOffLink s).trk = s.trk ∧ (clearIfOffLink s).lp = s.lp ∧ (clearIfOffLink s).cas = s.cas ∧
    (clearIfOffLink s).store = s.store ∧ (clearIfOffLink s).sens = s.sens ∧ (clearIfOffLink s).hold = s.hold ∧
    (clearIfOffLink s).link = s.link ∧ (clearIfOffLink s).ec = s.ec ∧ (clearIfOffLink s).rep = s.rep := by
  unfold clearIfOffLink
  split <;> simp

@[simp] theorem ageViews_frame (s : State) :
    (ageViews s).pending = s.pending ∧ (ageViews s).clock = s.clock ∧ (ageViews s).draws = s.draws ∧
    (ageViews s).ldr = s.ldr ∧ (ageViews s).seq = s.seq ∧ (ageViews s).trk = s.trk ∧ (ageViews s).lp = s.lp ∧
    (ageViews s).store = s.store ∧ (ageViews s).sens = s.sens ∧ (ageViews s).hold = s.hold ∧
    (ageViews s).link = s.link ∧ (ageViews s).txq = s.txq ∧ (ageViews s).ec = s.ec ∧ (ageViews s).rep = s.rep := by
  simp [ageViews]

@[simp] theorem workFactor_frame (s : State) :
    (workFactor s).pending = s.pending ∧ (workFactor s).clock = s.clock ∧ (workFactor s).draws = s.draws ∧
    (workFactor s).ldr = s.ldr ∧ (workFactor s).seq = s.seq ∧ (workFactor s).trk = s.trk ∧ (workFactor s).lp = s.lp ∧
    (workFactor s).store = s.store ∧ (workFactor s).sens = s.sens ∧ (workFactor s).hold = s.hold ∧
    (workFactor s).link = s.link ∧ (workFactor s).txq = s.txq ∧ (workFactor s).ec = s.ec := by
  simp [workFactor]

@[simp] theorem factorStep_frame (s : State) :
    (factorStep s).pending = s.pending ∧ (factorStep s).clock = s.clock ∧ (factorStep s).draws = s.draws ∧
    (factorStep s).ldr = s.ldr ∧ (factorStep s).seq = s.seq ∧ (factorStep s).trk = s.trk ∧ (factorStep s).lp = s.lp ∧
    (factorStep s).store = s.store ∧ (factorStep s).sens = s.sens ∧ (factorStep s).hold = s.hold ∧
    (factorStep s).link = s.link ∧ (factorStep s).txq = s.txq ∧ (factorStep s).ec = s.ec := by
  unfold factorStep
  split <;> simp

@[simp] theorem impactStep_frame (s : State) :
    (impactStep s).pending = s.pending ∧ (impactStep s).clock = s.clock ∧ (impactStep s).draws = s.draws ∧
    (impactStep s).ldr = s.ldr ∧ (impactStep s).trk = s.trk ∧ (impactStep s).lp = s.lp ∧ (impactStep s).cas = s.cas ∧
    (impactStep s).store = s.store ∧ (impactStep s).sens = s.sens ∧ (impactStep s).hold = s.hold ∧
    (impactStep s).link = s.link ∧ (impactStep s).txq = s.txq ∧ (impactStep s).ec = s.ec ∧
    (impactStep s).rep = s.rep := by
  unfold impactStep
  split <;> simp

@[simp] theorem workReference_frame (base : Nat) (s : State) :
    (workReference base s).pending = s.pending ∧ (workReference base s).clock = s.clock ∧
    (workReference base s).draws = s.draws ∧ (workReference base s).ldr = s.ldr ∧
    (workReference base s).seq = s.seq ∧ (workReference base s).trk = s.trk ∧ (workReference base s).lp = s.lp ∧
    (workReference base s).store = s.store ∧ (workReference base s).sens = s.sens ∧
    (workReference base s).hold = s.hold ∧ (workReference base s).link = s.link ∧
    (workReference base s).txq = s.txq ∧ (workReference base s).ec = s.ec := by
  simp [workReference]

@[simp] theorem holdReference_frame (s : State) :
    (holdReference s).pending = s.pending ∧ (holdReference s).clock = s.clock ∧ (holdReference s).draws = s.draws ∧
    (holdReference s).ldr = s.ldr ∧ (holdReference s).seq = s.seq ∧ (holdReference s).trk = s.trk ∧
    (holdReference s).lp = s.lp ∧ (holdReference s).store = s.store ∧ (holdReference s).sens = s.sens ∧
    (holdReference s).hold = s.hold ∧ (holdReference s).link = s.link ∧ (holdReference s).txq = s.txq ∧
    (holdReference s).ec = s.ec ∧ (holdReference s).rep = s.rep := by
  simp [holdReference]

@[simp] theorem referenceStep_frame (s : State) :
    (referenceStep s).pending = s.pending ∧ (referenceStep s).clock = s.clock ∧ (referenceStep s).draws = s.draws ∧
    (referenceStep s).ldr = s.ldr ∧ (referenceStep s).seq = s.seq ∧ (referenceStep s).trk = s.trk ∧
    (referenceStep s).lp = s.lp ∧ (referenceStep s).store = s.store ∧ (referenceStep s).sens = s.sens ∧
    (referenceStep s).hold = s.hold ∧ (referenceStep s).link = s.link ∧ (referenceStep s).txq = s.txq ∧
    (referenceStep s).ec = s.ec := by
  unfold referenceStep
  repeat' split
  all_goals simp

@[simp] theorem headOnAction_frame (sender : BitVec 5) (tag : Tag) (age : BitVec 16) (s : State) :
    (headOnAction sender tag age s).pending = s.pending ∧ (headOnAction sender tag age s).clock = s.clock ∧
    (headOnAction sender tag age s).draws = s.draws ∧ (headOnAction sender tag age s).ldr = s.ldr ∧
    (headOnAction sender tag age s).cas = s.cas ∧ (headOnAction sender tag age s).sens = s.sens ∧
    (headOnAction sender tag age s).hold = s.hold ∧ (headOnAction sender tag age s).link = s.link ∧
    (headOnAction sender tag age s).txq = s.txq := by
  unfold headOnAction
  split <;> simp

@[simp] theorem tailOffAction_frame (sender : BitVec 5) (tag : Tag) (age : BitVec 16) (s : State) :
    (tailOffAction sender tag age s).pending = s.pending ∧ (tailOffAction sender tag age s).clock = s.clock ∧
    (tailOffAction sender tag age s).draws = s.draws ∧ (tailOffAction sender tag age s).ldr = s.ldr ∧
    (tailOffAction sender tag age s).seq = s.seq ∧ (tailOffAction sender tag age s).lp = s.lp ∧
    (tailOffAction sender tag age s).cas = s.cas ∧ (tailOffAction sender tag age s).store = s.store ∧
    (tailOffAction sender tag age s).sens = s.sens ∧ (tailOffAction sender tag age s).hold = s.hold ∧
    (tailOffAction sender tag age s).link = s.link ∧ (tailOffAction sender tag age s).txq = s.txq ∧
    (tailOffAction sender tag age s).ec = s.ec := by
  unfold tailOffAction
  split <;> simp

@[simp] theorem cascadeAction_frame (sender : BitVec 5) (v : View) (s : State) :
    (cascadeAction sender v s).pending = s.pending ∧ (cascadeAction sender v s).clock = s.clock ∧
    (cascadeAction sender v s).draws = s.draws ∧ (cascadeAction sender v s).ldr = s.ldr ∧
    (cascadeAction sender v s).seq = s.seq ∧ (cascadeAction sender v s).trk = s.trk ∧
    (cascadeAction sender v s).lp = s.lp ∧ (cascadeAction sender v s).store = s.store ∧
    (cascadeAction sender v s).sens = s.sens ∧ (cascadeAction sender v s).hold = s.hold ∧
    (cascadeAction sender v s).link = s.link ∧ (cascadeAction sender v s).txq = s.txq ∧
    (cascadeAction sender v s).ec = s.ec ∧ (cascadeAction sender v s).rep = s.rep := by
  unfold cascadeAction
  split <;> simp

@[simp] theorem takeDrill_frame (target kind : Byte) (s : State) :
    (takeDrill target kind s).pending = s.pending ∧ (takeDrill target kind s).clock = s.clock ∧
    (takeDrill target kind s).draws = s.draws ∧ (takeDrill target kind s).ldr = s.ldr ∧
    (takeDrill target kind s).seq = s.seq ∧ (takeDrill target kind s).trk = s.trk ∧
    (takeDrill target kind s).lp = s.lp ∧ (takeDrill target kind s).cas = s.cas ∧
    (takeDrill target kind s).store = s.store ∧ (takeDrill target kind s).hold = s.hold ∧
    (takeDrill target kind s).txq = s.txq ∧ (takeDrill target kind s).rep = s.rep := by
  unfold takeDrill
  split_ifs <;> simp

@[simp] theorem restartLink_frame (s : State) :
    (restartLink s).pending = s.pending ∧ (restartLink s).clock = s.clock ∧ (restartLink s).draws = s.draws ∧
    (restartLink s).ldr = s.ldr ∧ (restartLink s).seq = s.seq ∧ (restartLink s).trk = s.trk ∧
    (restartLink s).lp = s.lp ∧ (restartLink s).cas = s.cas ∧ (restartLink s).store = s.store ∧
    (restartLink s).sens = s.sens ∧ (restartLink s).hold = s.hold ∧ (restartLink s).link = s.link := by
  simp [restartLink]

@[simp] theorem restartStand_frame (s : State) :
    (restartStand s).pending = s.pending ∧ (restartStand s).clock = s.clock ∧ (restartStand s).draws = s.draws ∧
    (restartStand s).ldr = s.ldr ∧ (restartStand s).txq = s.txq ∧ (restartStand s).ec = s.ec ∧
    (restartStand s).rep = s.rep := by
  simp [restartStand]

@[simp] theorem readRecessive_frame (quiet : QuietLine) (s : State) :
    (readRecessive quiet s).pending = s.pending ∧ (readRecessive quiet s).clock = s.clock ∧
    (readRecessive quiet s).draws = s.draws ∧ (readRecessive quiet s).ldr = s.ldr ∧
    (readRecessive quiet s).seq = s.seq ∧ (readRecessive quiet s).trk = s.trk ∧ (readRecessive quiet s).lp = s.lp ∧
    (readRecessive quiet s).cas = s.cas ∧ (readRecessive quiet s).store = s.store ∧
    (readRecessive quiet s).sens = s.sens ∧ (readRecessive quiet s).hold = s.hold ∧
    (readRecessive quiet s).txq = s.txq ∧ (readRecessive quiet s).ec = s.ec ∧
    (readRecessive quiet s).rep = s.rep := by
  simp [readRecessive]

end Frames

section ForceSamples

/-- R110, R118: the station at a force sample before the sample is evaluated: fresh, and aligned after a stale spell. -/
def resumed (s : State) : State :=
  if s.sens.forceStale then leaveHoldIfReady (alignDetector (forceArrives s)) else forceArrives s

theorem takeForce_eq (f : Nat) (s : State) :
    takeForce f s = if (resumed s).seq.stand = .unconfigured then resumed s else evaluateForce (min f 40000) (resumed s) := rfl

@[simp] theorem resumed_frame (s : State) :
    (resumed s).pending = s.pending ∧ (resumed s).clock = s.clock ∧ (resumed s).draws = s.draws ∧
    (resumed s).ldr = s.ldr ∧ (resumed s).trk = s.trk ∧ (resumed s).store = s.store ∧ (resumed s).hold = s.hold ∧
    (resumed s).link = s.link ∧ (resumed s).txq = s.txq ∧ (resumed s).ec = s.ec ∧ (resumed s).rep = s.rep := by
  unfold resumed
  split <;> simp

/-- What the evaluation of a force sample can leave (R112 to R114, R125). -/
inductive ForceDoes (s : State) : State → Prop
  | blocked : ForceDoes s s
  | unblock (h : s.sens.drill = some .blocking) : ForceDoes s (s.setSens { s.sens with drill := none })
  | near : ForceDoes s (s.setSens { s.sens with run := none })
  | far (r : Run) (h : s.sens.drill ≠ some .blocking) : ForceDoes s (s.setSens { s.sens with run := some r })
  | discard (h : s.sens.drill = some .waiting) : ForceDoes s (setSticky .drillFired
      (catchUpFlaw (s.setSens { s.sens with loaded := false, run := none, drill := some .blocking })))
  | loadOn (event : Instant) (h : s.sens.drill = none) :
      ForceDoes s (loadOn event false (s.setSens { s.sens with loaded := true, run := none }))
  | loadOff (event : Instant) (h : s.sens.drill ≠ some .blocking) :
      ForceDoes s (leaveHoldIfReady (loadOff event (s.setSens { s.sens with loaded := false, run := none })))

theorem decideLoadOn_does {s : State} (event : Instant) (h : s.sens.drill ≠ some .blocking) :
    ForceDoes s (decideLoadOn event s) := by
  unfold decideLoadOn
  cases hd : s.sens.drill with
  | none => exact .loadOn event hd
  | some p =>
    cases p with
    | waiting => exact .discard hd
    | blocking => exact absurd hd h

theorem farSample_does {s : State} (h : s.sens.drill ≠ some .blocking) : ForceDoes s (farSample s) := by
  unfold farSample
  dsimp only
  split_ifs
  · exact .loadOff _ h
  · exact decideLoadOn_does _ h
  · exact .far _ h

theorem evaluateForce_does (f : Nat) (s : State) : ForceDoes s (evaluateForce f s) := by
  unfold evaluateForce
  split_ifs with hd
  · exact .unblock hd
  · exact .blocked
  all_goals first | exact farSample_does hd | exact .near

/-- A force sample in UNCONFIGURED only restarts the silence timer and aligns the detector; elsewhere it is evaluated. -/
theorem takeForce_cases (f : Nat) (s : State) :
    takeForce f s = resumed s ∨ (resumed s).seq.stand ≠ .unconfigured ∧ ForceDoes (resumed s) (takeForce f s) := by
  rw [takeForce_eq]
  split_ifs with h
  · exact .inl rfl
  · exact .inr ⟨h, evaluateForce_does _ _⟩

end ForceSamples

section Turn

/-- The waiting commands and the station clock are kept. -/
abbrev SameTurn (s t : State) : Prop := t.pending = s.pending ∧ t.clock = s.clock

theorem LinkDoes.sameTurn {s t : State} (h : LinkDoes s t) : SameTurn s t := by
  cases h <;> simp [SameTurn]

theorem ForceDoes.sameTurn {s t : State} (h : ForceDoes s t) : SameTurn s t := by
  cases h <;> simp [SameTurn]

theorem takeForce_turn (f : Nat) (s : State) : SameTurn s (takeForce f s) := by
  rcases takeForce_cases f s with h | ⟨-, h⟩
  · simp [h, SameTurn]
  · obtain ⟨hp, hc⟩ := h.sameTurn
    exact ⟨by simp [hp], by simp [hc]⟩

theorem readHotMetal_turn (level : Bool) (s : State) : SameTurn s (readHotMetal level s) := by
  unfold readHotMetal
  dsimp only
  split_ifs <;> simp [SameTurn]

theorem restartStation_turn (target : Byte) (s : State) : SameTurn s (restartStation target s) := by
  unfold restartStation
  split_ifs <;> simp [SameTurn]

/-- No outcome touches the waiting commands or the clock reading. -/
theorem Does.sameTurn {s t : State} (h : Does s t) : SameTurn s t := by
  cases h
  case link h => exact h.sameTurn
  case reset | release | giveLink => exact ⟨rfl, rfl⟩
  case configure => simp [SameTurn, Machine.giveLink, Machine.configure]
  case force f _ => exact takeForce_turn f s
  case hotMetal level => exact readHotMetal_turn level s
  case restart marker target _ =>
    obtain ⟨hp, hc⟩ := restartStation_turn target (receiveClean marker s)
    exact ⟨by simp [hp], by simp [hc]⟩
  all_goals simp [SameTurn]

end Turn

/-- Settles O1: the two rows of `step`. -/
theorem stepTakesFrontCommand : Obligations.StepTakesFrontCommand :=
  ⟨fun c rest s h => by rw [step, h], fun s h => by rw [step, h]⟩

/-- Settles O2: every meaning answers a next state, and no outcome touches the queue or the command's clock reading. -/
theorem everyCommandAnswers : Obligations.EveryCommandAnswers := fun c s =>
  ⟨after c s, exec_eq c s, (after_does c s).sameTurn⟩

/-- Settles O3: the laws are decidable, and State.reset is a closed state. -/
theorem resetIsLawful : Obligations.ResetIsLawful := by
  refine ⟨by decide, by decide, by decide, by decide, by decide, by decide, by decide, by decide, by decide, by decide⟩

end Sys2Proof.Machine
end

section
/-! PROOFS. The branches of the operations that several invariants meet: hold entry and exit, a restart, a reading of the
hot-metal input, the creation of a marker; and what the events of the link leave alone. -/

namespace Sys2Proof.Machine

/-- The events of the link change nothing of the stand's side. -/
theorem LinkDoes.sameStand {s t : State} (h : LinkDoes s t) : SameStand s t := by
  cases h <;> simp [SameStand]

section HoldEntryAndExit

/-- R132: hold entry is signalled only while the filtered line is active and the stand tracks. -/
theorem enterHoldIfActive_cases (s : State) :
    enterHoldIfActive s = s ∧ (s.hold.filtered = false ∨ s.seq.stand.tracks = false) ∨
    enterHoldIfActive s = holdEntry s ∧ s.hold.filtered = true ∧ s.seq.stand.tracks = true := by
  unfold enterHoldIfActive
  cases hf : s.hold.filtered <;> cases ht : s.seq.stand.tracks <;> simp

@[simp] theorem holdEntry_seq (s : State) : (holdEntry s).seq = { stand := .hold, bite := none } := rfl
@[simp] theorem holdEntry_trk (s : State) : (holdEntry s).trk = { markers := [], entryTag := 0 } := rfl
@[simp] theorem holdEntry_lp (s : State) : (holdEntry s).lp = (holdLowerLooper s.biteTag s).lp := rfl

@[simp] theorem holdEntry_store (s : State) :
    (holdEntry s).store = { s.store with table := retireEntered s.store.table } := by simp [holdEntry, retire]

@[simp] theorem holdEntry_sens (s : State) : (holdEntry s).sens = { s.sens with drill := none } := by simp [holdEntry]

@[simp] theorem holdEntry_txq (s : State) :
    (holdEntry s).txq = { s.txq with slots := mapSlots clearAtHold s.txq.slots } := by simp [holdEntry]

/-- R27: the hold ends only where the release is qualified and the detector UNLOADED. -/
theorem leaveHoldIfReady_cases (s : State) :
    leaveHoldIfReady s = s ∧ ¬(s.seq.stand = .hold ∧ s.hold.qualified = true ∧ s.sens.loaded = false) ∨
    leaveHoldIfReady s = holdExit s ∧ s.seq.stand = .hold ∧ s.hold.qualified = true ∧ s.sens.loaded = false := by
  unfold leaveHoldIfReady
  by_cases h : s.seq.stand = .hold ∧ s.hold.qualified = true ∧ s.sens.loaded = false <;> simp [h]

@[simp] theorem holdExit_seq (s : State) : (holdExit s).seq = { s.seq with stand := .empty } := by simp [holdExit]

@[simp] theorem holdExit_cas (s : State) : (holdExit s).cas = { s.cas with factor := 0, limited := false } := by
  simp [holdExit]

@[simp] theorem holdExit_lp (s : State) : (holdExit s).lp = looperAfterHold s := by
  cases h : s.lp.state <;> simp [holdExit, holdExitLooper, startLowering, looperAfterHold, h]

end HoldEntryAndExit

section Restart

/-- R180: a RESTART does nothing where it is not addressed, and starts the stand afresh only where it is configured. -/
theorem restartStation_cases (target : Byte) (s : State) :
    restartStation target s = s ∨
    restartStation target s = restartLink s ∧ s.seq.stand = .unconfigured ∨
    restartStation target s = enterHoldIfActive (restartLink (restartStand s)) ∧ s.seq.stand ≠ .unconfigured := by
  unfold restartStation
  split_ifs with ha hu
  · exact .inr (.inl ⟨rfl, hu⟩)
  · exact .inr (.inr ⟨rfl, hu⟩)
  · exact .inl rfl

@[simp] theorem restartStand_seq (s : State) : (restartStand s).seq = { stand := .empty, bite := none } := rfl
@[simp] theorem restartStand_trk (s : State) : (restartStand s).trk = { markers := [], entryTag := 0 } := rfl
@[simp] theorem restartStand_store (s : State) :
    (restartStand s).store = { staging := s.ldr.image.defaults, table := [] } := rfl
@[simp] theorem restartStand_lp (s : State) : (restartStand s).lp =
    { state := if s.atLast then .none else .parked, command := s.ldr.image.thetaRest, integral := 0, trim := 0 } := rfl
@[simp] theorem restartStand_cas (s : State) : (restartStand s).cas =
    { factor := 0, limited := false, reference := s.ldr.image.vMin, clamped := false, upView := View.neverHeard,
      downView := View.neverHeard, periodFrom := some s.clock } := rfl
@[simp] theorem restartStand_sens (s : State) : (restartStand s).sens = { s.sens with drill := none } := by
  simp [restartStand]
@[simp] theorem restartStand_link (s : State) : (restartStand s).link = { s.link with flawArmed := false } := by
  simp [restartStand]
@[simp] theorem restartStand_hold (s : State) : (restartStand s).hold = (setDrive false s).hold := rfl

/-- R130: only the drive and the timing of the filter change with the own drive. -/
@[simp] theorem setDrive_hold_fields (d : Bool) (s : State) :
    (setDrive d s).hold.ownDrive = d ∧ (setDrive d s).hold.filtered = s.hold.filtered ∧
    (setDrive d s).hold.timer = s.hold.timer ∧ (setDrive d s).hold.qualified = s.hold.qualified ∧
    (setDrive d s).hold.others = s.hold.others := by
  simp [setDrive]

end Restart

section HotMetal

/-- R119, R120: a reading changes the debounced level and the candidate run only, unless it is an edge. -/
theorem readHotMetal_cases (level : Bool) (s : State) : ∃ (l : Option Bool) (r : Option HotRun),
    readHotMetal level s = s.setSens { s.sens with hotLevel := l, hotRun := r } ∨
    readHotMetal level s = hotMetalEdge level (s.setSens { s.sens with hotLevel := l, hotRun := r }) := by
  unfold readHotMetal
  dsimp only
  split_ifs
  · exact ⟨_, _, .inl rfl⟩
  · exact ⟨_, _, .inr rfl⟩
  · exact ⟨_, _, .inl rfl⟩
  · exact ⟨_, _, .inl rfl⟩

/-- R38: a marker is inserted unless the list holds 8. -/
theorem createMarker_cases (kind : MarkerKind) (tag : Tag) (mm us : Nat) (s : State) :
    8 ≤ s.trk.markers.length ∧ createMarker kind tag mm us s = setSticky .trackFull s ∨
    s.trk.markers.length < 8 ∧ createMarker kind tag mm us s =
      s.setTrk { s.trk with markers := insertMarker (placedMarker s kind tag mm us) s.trk.markers } := by
  unfold createMarker
  split_ifs with h
  · exact .inl ⟨h, rfl⟩
  · exact .inr ⟨not_le.mp h, rfl⟩

end HotMetal

end Sys2Proof.Machine
end

section
/-! PROOFS. R29: every step keeps the marker list short and ordered. Creation inserts where the order has it, removal takes a
sublist, and the clamp restores the order that the advance may have disturbed; O4 is assembled from these. -/

namespace Sys2Proof.Machine

section Lists

variable {l l' : List Marker}

theorem MarkersLawful.of_sublist (h : MarkersLawful l) (hs : l'.Sublist l) : MarkersLawful l' :=
  ⟨hs.length_le.trans h.1, h.2.sublist hs⟩

/-- The law reads the distances only. -/
theorem markersLawful_iff : MarkersLawful l ↔
    (l.map Marker.distance).length ≤ 8 ∧ (l.map Marker.distance).Pairwise (· ≤ ·) := by
  simp [MarkersLawful, List.pairwise_map]

theorem MarkersLawful.of_distances (h : MarkersLawful l) (hd : l'.map Marker.distance = l.map Marker.distance) :
    MarkersLawful l' := by
  rw [markersLawful_iff] at h ⊢
  rwa [hd]

theorem nameTail_distances (tag : Tag) (l : List Marker) : (nameTail tag l).map Marker.distance = l.map Marker.distance := by
  induction l with
  | nil => rfl
  | cons m rest ih =>
    unfold nameTail
    split_ifs
    · rfl
    · simp [ih]

theorem le_of_mem_clampFrom {d : Int} {l : List Marker} : ∀ x ∈ clampFrom d l, d ≤ x.distance := by
  induction l generalizing d with
  | nil => simp
  | cons m rest ih =>
    intro x hx
    rw [clampFrom_cons] at hx
    obtain rfl | hx := List.mem_cons.mp hx
    · exact le_max_left _ _
    · exact (le_max_left _ _).trans (ih x hx)

theorem clampFrom_frontFirst (d : Int) (l : List Marker) : FrontFirst (clampFrom d l) := by
  induction l generalizing d with
  | nil => exact .nil
  | cons m rest ih =>
    rw [clampFrom_cons]
    exact List.pairwise_cons.mpr ⟨le_of_mem_clampFrom, ih _⟩

/-- R43: whatever the advance gives, the clamped list is ordered. -/
theorem clampOrder_frontFirst (l : List Marker) : FrontFirst (clampOrder l) := by
  cases l with
  | nil => exact .nil
  | cons m rest => exact List.pairwise_cons.mpr ⟨le_of_mem_clampFrom, clampFrom_frontFirst _ _⟩

theorem removeTail_sublist (tag : Tag) (l : List Marker) : (removeTail tag l).Sublist l := by
  unfold removeTail
  split_ifs <;> exact List.eraseP_sublist

theorem insertMarker_length (m : Marker) (l : List Marker) : (insertMarker m l).length = l.length + 1 := by
  obtain ⟨ahead, behind, rfl, h, -⟩ := insertMarker_splits m l
  rw [h]
  simp
  omega

end Lists

/-- R29 of a station. -/
abbrev TracksLawfully (s : State) : Prop := MarkersLawful s.trk.markers

variable {s : State}

theorem tracksLawfully_of_trk {t : State} (h : TracksLawfully s) (ht : t.trk = s.trk) : TracksLawfully t := by
  rwa [TracksLawfully, ht]

theorem tracksLawfully_createMarker (kind : MarkerKind) (tag : Tag) (mm us : Nat) (h : TracksLawfully s) :
    TracksLawfully (createMarker kind tag mm us s) := by
  rcases createMarker_cases kind tag mm us s with ⟨-, e⟩ | ⟨hl, e⟩
  · exact tracksLawfully_of_trk h (by simp [e])
  · rw [e]
    exact ⟨by simpa [insertMarker_length] using hl, insertMarker_frontFirst _ h.2⟩

theorem tracksLawfully_trackNotice (kind : MarkerKind) (tag : Tag) (age : BitVec 16) (h : TracksLawfully s) :
    TracksLawfully (trackNotice kind tag age s) := by
  unfold trackNotice
  split_ifs
  · exact tracksLawfully_createMarker _ _ _ _ h
  · exact h

theorem tracksLawfully_hotMetalEdge (rising : Bool) (h : TracksLawfully s) : TracksLawfully (hotMetalEdge rising s) := by
  unfold hotMetalEdge risingEdge fallingEdge
  split_ifs
  · exact tracksLawfully_createMarker _ _ _ _ h
  · exact tracksLawfully_createMarker _ _ _ _ h
  · exact h

theorem tracksLawfully_readHotMetal (level : Bool) (h : TracksLawfully s) : TracksLawfully (readHotMetal level s) := by
  obtain ⟨l, r, e | e⟩ := readHotMetal_cases level s
  · rw [e]
    exact h
  · rw [e]
    exact tracksLawfully_hotMetalEdge level h

theorem tracksLawfully_openBite (event : Instant) (p : Bool) (h : TracksLawfully s) :
    TracksLawfully (openBite event p s) := by
  obtain ⟨-, htrk, -⟩ := openBite_spec event p s
  have hrest : MarkersLawful (removeFirstHead s.trk.markers) := h.of_sublist List.eraseP_sublist
  rw [TracksLawfully, htrk]
  split
  · exact hrest.of_distances (nameTail_distances _ _)
  · exact hrest

theorem tracksLawfully_loadOn (event : Instant) (p : Bool) (h : TracksLawfully s) : TracksLawfully (loadOn event p s) := by
  unfold loadOn
  split
  · exact tracksLawfully_openBite event p h
  · exact tracksLawfully_openBite event p h
  all_goals exact h

theorem tracksLawfully_closeBite (event : Instant) (b : Bite) (h : TracksLawfully s) :
    TracksLawfully (closeBite event b s) := by
  obtain ⟨-, htrk, -⟩ := closeBite_spec event b s
  rw [TracksLawfully, htrk]
  exact h.of_sublist (removeTail_sublist _ _)

theorem tracksLawfully_loadOff (event : Instant) (h : TracksLawfully s) : TracksLawfully (loadOff event s) := by
  unfold loadOff
  split
  · exact tracksLawfully_closeBite event _ h
  · exact tracksLawfully_closeBite event _ h
  · exact tracksLawfully_closeBite event _ h
  · exact h

theorem ForceDoes.tracksLawfully {t : State} (hd : ForceDoes s t) (h : TracksLawfully s) : TracksLawfully t := by
  cases hd
  case loadOn event _ => exact tracksLawfully_loadOn event _ h
  case loadOff event _ =>
    have hoff := tracksLawfully_loadOff event (s := s.setSens { s.sens with loaded := false, run := none }) h
    exact tracksLawfully_of_trk hoff (by simp)
  all_goals exact tracksLawfully_of_trk h (by simp)

theorem tracksLawfully_takeForce (f : Nat) (h : TracksLawfully s) : TracksLawfully (takeForce f s) := by
  have hr : TracksLawfully (resumed s) := tracksLawfully_of_trk h (by simp)
  rcases takeForce_cases f s with e | ⟨-, hd⟩
  · rwa [e]
  · exact hd.tracksLawfully hr

/-- R42 to R48: what the reports of an expiry leave is a sublist of the clamped list. -/
theorem tracksLawfully_reports (h : TracksLawfully s) :
    TracksLawfully (leadTail (openWindows (dropMissed (dropOverdue (advanceAll s))))) := by
  have hmoved : MarkersLawful (movedMarkers s) :=
    ⟨by simpa [advanceMarkers] using h.1, clampOrder_frontFirst _⟩
  have hleft : MarkersLawful (leftMarkers s) := hmoved.of_sublist List.filter_sublist
  rw [TracksLawfully, (leadTail_spec s).1]
  exact hleft.of_distances (by simp [opened, Function.comp_def])

theorem tracksLawfully_predict (h : TracksLawfully s) : TracksLawfully (predict s) := by
  unfold predict
  repeat' split
  all_goals first | exact h | exact tracksLawfully_loadOn _ _ h | exact tracksLawfully_loadOff _ h

theorem tracksLawfully_enterHoldIfActive (h : TracksLawfully s) : TracksLawfully (enterHoldIfActive s) := by
  rcases enterHoldIfActive_cases s with ⟨e, -⟩ | ⟨e, -⟩
  · rwa [e]
  · rw [e]
    exact ⟨by simp, by simp⟩

theorem tracksLawfully_headOnAction (sender : BitVec 5) (tag : Tag) (age : BitVec 16) (h : TracksLawfully s) :
    TracksLawfully (headOnAction sender tag age s) := by
  unfold headOnAction upstreamHead
  repeat' split
  all_goals
    first
    | exact tracksLawfully_trackNotice _ _ _ h
    | exact tracksLawfully_of_trk h (by simp)

theorem tracksLawfully_tailOffAction (sender : BitVec 5) (tag : Tag) (age : BitVec 16) (h : TracksLawfully s) :
    TracksLawfully (tailOffAction sender tag age s) := by
  unfold tailOffAction
  split
  · exact tracksLawfully_trackNotice _ _ _ h
  all_goals exact h

theorem tracksLawfully_restartStation (target : Byte) (h : TracksLawfully s) :
    TracksLawfully (restartStation target s) := by
  rcases restartStation_cases target s with e | ⟨e, -⟩ | ⟨e, -⟩
  · rwa [e]
  · exact tracksLawfully_of_trk h (by simp [e])
  · rw [e]
    exact tracksLawfully_enterHoldIfActive ⟨by simp, by simp⟩

theorem Does.tracksLawfully {t : State} (hd : Does s t) (h : TracksLawfully s) : TracksLawfully t := by
  have hclean (marker : Bool) : TracksLawfully (receiveClean marker s) := tracksLawfully_of_trk h (by simp)
  cases hd
  case link hd =>
    obtain ⟨-, -, htrk, -⟩ := hd.sameStand
    exact tracksLawfully_of_trk h htrk
  case reset => exact ⟨Nat.zero_le 8, .nil⟩
  case configure => exact tracksLawfully_enterHoldIfActive h
  case force f _ => exact tracksLawfully_takeForce f h
  case hotMetal level => exact tracksLawfully_readHotMetal level h
  case expiry => exact tracksLawfully_predict (tracksLawfully_reports h)
  case lineActive => exact tracksLawfully_enterHoldIfActive h
  case headOn => exact tracksLawfully_headOnAction _ _ _ (hclean _)
  case tailOff => exact tracksLawfully_tailOffAction _ _ _ (hclean _)
  case restart => exact tracksLawfully_restartStation _ (hclean _)
  case release | giveLink => exact h
  all_goals exact tracksLawfully_of_trk h (by simp)

/-- Settles O4, outcome by outcome. -/
theorem markersStayOrdered : Obligations.MarkersStayOrdered := fun _ _ =>
  step_keeps (P := TracksLawfully) (fun _ _ _ h => h) fun _ _ hd h => hd.tracksLawfully h

end Sys2Proof.Machine
end

section
/-! PROOFS. R3, R4, R16, R91: every step keeps bite, stand state, partner and schedule table in agreement. A station without a
bite is lawful when its table is and holds no ENTERED record; the operations on a bite are taken one by one. O5 is assembled
from these. -/

namespace Sys2Proof.Machine

section Tables

variable {table : List Record}

theorem enterRecord_tags (tag : Tag) (table : List Record) :
    (enterRecord tag table).map Record.tag = table.map Record.tag := by
  simp only [enterRecord, List.map_map, Function.comp_def]
  congr 1
  funext r
  split_ifs <;> rfl

theorem tableLawful_iff_tags : TableLawful table ↔
    (table.map Record.tag).length ≤ 3 ∧ (table.map Record.tag).Nodup ∧ ∀ x ∈ table.map Record.tag, x ≠ 0 := by
  simp [TableLawful]

/-- R91: the law reads the tags only. -/
theorem TableLawful.of_tags {table' : List Record} (h : TableLawful table)
    (ht : table'.map Record.tag = table.map Record.tag) : TableLawful table' := by
  rw [tableLawful_iff_tags] at h ⊢
  rwa [ht]

theorem TableLawful.of_sublist {table' : List Record} (h : TableLawful table) (hs : table'.Sublist table) :
    TableLawful table' := by
  obtain ⟨hlen, hnodup, hzero⟩ := h
  exact ⟨hs.length_le.trans hlen, hnodup.sublist (hs.map _), fun r hr => hzero r (hs.subset hr)⟩

theorem TableLawful.append {r : Record} (h : TableLawful table) (hlen : table.length < 3) (h0 : r.tag ≠ 0)
    (hfree : findRecord table r.tag = none) : TableLawful (table ++ [r]) := by
  obtain ⟨-, hnodup, hzero⟩ := h
  have hnew : ∀ x ∈ table, x.tag ≠ r.tag := by
    have h0' : r.tag ≠ 0#8 := h0
    simpa [findRecord, h0'] using hfree
  refine ⟨by simpa using hlen, ?_, ?_⟩
  · simpa [List.nodup_append] using ⟨hnodup, hnew⟩
  · intro x hx
    obtain hx | rfl : x ∈ table ∨ x = r := by simpa using hx
    · exact hzero x hx
    · exact h0

/-- R103: after the binding of a tag the ENTERED records are those that were, and the tag's. -/
theorem tag_of_mem_enterRecord {tag : Tag} {r : Record} (hr : r ∈ enterRecord tag table) (he : r.state = .entered) :
    r.tag = tag ∨ r ∈ table := by
  obtain ⟨x, hx, rfl⟩ := List.mem_map.mp hr
  by_cases htag : x.tag = tag
  · exact .inl (by simp [htag])
  · exact .inr (by simpa [htag] using hx)

theorem mem_retireEntered {r : Record} : r ∈ retireEntered table ↔ r ∈ table ∧ r.state ≠ .entered := by
  simp [retireEntered]

end Tables

variable {s t : State}

theorem handOffLawful_of_parts (h : HandOffLawful s) (htable : t.store.table = s.store.table) (hseq : t.seq = s.seq)
    (hldr : t.ldr = s.ldr) : HandOffLawful t := by
  simpa only [HandOffLawful, EnteredLawful, UnannouncedLawful, PartnerLawful, StandLawful, State.atLast, State.position,
    htable, hseq, hldr] using h

theorem HandOffLawful.bite_eq_none (h : HandOffLawful s) (hs : s.seq.stand.biting = false) : s.seq.bite = none := by
  obtain ⟨-, hbite, -⟩ := h
  simpa [BiteLawful, hs] using hbite

theorem HandOffLawful.stand_of_bite (h : HandOffLawful s) {b : Bite} (hb : s.seq.bite = some b) :
    s.seq.stand.biting = true := by
  obtain ⟨-, hbite, -⟩ := h
  simpa [BiteLawful, hb] using hbite

/-- R4: without a bite no record is ENTERED. -/
theorem HandOffLawful.none_entered (h : HandOffLawful s) (hb : s.seq.bite = none) :
    ∀ r ∈ s.store.table, r.state ≠ .entered := by
  obtain ⟨-, -, hentered, -⟩ := h
  intro r hr he
  have := hentered r hr he
  simp [hb] at this

/-- The link is given before the stand leaves UNCONFIGURED (R177). -/
theorem HandOffLawful.running (h : HandOffLawful s) (hs : s.seq.stand ≠ .unconfigured) : s.ldr.phase = .running := by
  obtain ⟨-, -, -, -, -, hconf, -⟩ := h
  exact not_not.mp fun hp => hs (hconf hp)

/-- R4: an ENTERED record bears the tag of the bite. -/
theorem HandOffLawful.entered_tag (h : HandOffLawful s) : EnteredLawful s := by
  obtain ⟨-, -, hentered, -⟩ := h
  exact hentered

/-- A station without a bite is lawful where its table is and holds no ENTERED record. -/
theorem handOffLawful_of_no_bite (hb : s.seq.bite = none) (hs : s.seq.stand.biting = false)
    (ht : TableLawful s.store.table) (he : ∀ r ∈ s.store.table, r.state ≠ .entered)
    (hp : s.ldr.phase ≠ .running → s.seq.stand = .unconfigured) : HandOffLawful s := by
  refine ⟨ht, by simp [BiteLawful, hb, hs], fun r hr he' => absurd he' (he r hr), by simp [UnannouncedLawful, hb],
    by simp [PartnerLawful, hb], hp, fun _ _ => ?_⟩
  constructor <;> (intro hst; rw [hst] at hs; cases hs)

/-- A station that stays without a bite. -/
theorem HandOffLawful.keep_no_bite (h : HandOffLawful s) (hs : s.seq.stand.biting = false)
    (htable : t.store.table = s.store.table) (hb : t.seq.bite = none) (hst : t.seq.stand.biting = false)
    (hp : t.ldr.phase ≠ .running → t.seq.stand = .unconfigured) : HandOffLawful t := by
  refine handOffLawful_of_no_bite hb hst (htable ▸ h.1) ?_ hp
  rw [htable]
  exact h.none_entered (h.bite_eq_none hs)

theorem handOffLawful_retired (h : HandOffLawful s) (htable : t.store.table = retireEntered s.store.table)
    (hb : t.seq.bite = none) (hst : t.seq.stand.biting = false)
    (hp : t.ldr.phase ≠ .running → t.seq.stand = .unconfigured) : HandOffLawful t := by
  refine handOffLawful_of_no_bite hb hst ?_ ?_ hp
  · rw [htable]
    exact h.1.of_sublist List.filter_sublist
  · rw [htable]
    exact fun r hr => (mem_retireEntered.mp hr).2

section Bites

/-- R7 to R10: an UNANNOUNCED arrival has tag 0. -/
theorem arrival_unannounced (s : State) (h : s.arrival.unannounced = true) : s.arrival.tag = 0 := by
  revert h
  unfold State.arrival
  dsimp only
  repeat' split
  all_goals simp

theorem handOffLawful_openBite (event : Instant) (p : Bool) (h : HandOffLawful s)
    (hs : s.seq.stand = .empty ∨ s.seq.stand = .awaiting) : HandOffLawful (openBite event p s) := by
  have hnb : s.seq.stand.biting = false := by rcases hs with hs | hs <;> simp [hs, StandState.biting]
  have hrun : s.ldr.phase = .running := h.running (by rcases hs with hs | hs <;> simp [hs])
  have hnone := h.none_entered (h.bite_eq_none hnb)
  obtain ⟨hseq, -, hstore, -⟩ := openBite_spec event p s
  have hlast : (openBite event p s).atLast = s.atLast := by simp [State.atLast, State.position]
  have hldr : (openBite event p s).ldr = s.ldr := by simp
  generalize openBite event p s = t at hseq hstore hlast hldr
  refine ⟨?_, ?_, ?_, ?_, ?_, ?_⟩
  · rw [hstore]
    dsimp only
    split_ifs
    · exact h.1
    · exact h.1.of_tags (enterRecord_tags _ _)
  · rw [BiteLawful, hseq]
    cases s.atLast <;> rfl
  · intro r hr he
    rw [hseq]
    rw [hstore] at hr
    dsimp only at hr
    split_ifs at hr with h0
    · exact absurd he (hnone r hr)
    · rcases tag_of_mem_enterRecord hr he with htag | hr
      · simp [biteOf, htag]
      · exact absurd he (hnone r hr)
  · intro b hb hu
    obtain rfl : biteOf s s.arrival p = b := by simpa [hseq] using hb
    exact arrival_unannounced s hu
  · intro b hb
    obtain rfl : biteOf s s.arrival p = b := by simpa [hseq] using hb
    rw [hseq, hlast]
    cases s.atLast <;> rfl
  · rw [StandLawful, hseq, hlast, hldr, hrun]
    cases s.atLast <;> simp

theorem handOffLawful_loadOn (event : Instant) (p : Bool) (h : HandOffLawful s) : HandOffLawful (loadOn event p s) := by
  unfold loadOn
  split
  · exact handOffLawful_openBite event p h (.inl ‹_›)
  · exact handOffLawful_openBite event p h (.inr ‹_›)
  all_goals exact h

theorem handOffLawful_closeBite (event : Instant) (b : Bite) (h : HandOffLawful s) (hs : s.seq.stand.biting = true) :
    HandOffLawful (closeBite event b s) := by
  have hrun : s.ldr.phase = .running := h.running fun hu => by rw [hu] at hs; cases hs
  obtain ⟨hseq, -, hstore, -⟩ := closeBite_spec event b s
  refine handOffLawful_retired h (by rw [hstore]) (by rw [hseq]) ?_ fun hp => absurd hrun (by simpa using hp)
  rw [hseq]
  dsimp only
  split_ifs <;> rfl

theorem handOffLawful_loadOff (event : Instant) (h : HandOffLawful s) : HandOffLawful (loadOff event s) := by
  unfold loadOff
  split
  case h_1 hs _ | h_2 hs _ | h_3 hs _ => exact handOffLawful_closeBite event _ h (by rw [hs]; rfl)
  case h_4 => exact h

theorem handOffLawful_adopt {b : Bite} (tag : Tag) (h : HandOffLawful s) (hb : s.seq.bite = some b)
    (hu : b.unannounced = true) : HandOffLawful (adopt b tag s) := by
  obtain ⟨htable, hbite, hentered, hunann, hpartner, hstand⟩ := h
  have hnone : ∀ r ∈ s.store.table, r.state ≠ .entered := by
    intro r hr he
    have htag := hentered r hr he
    rw [hb, Option.map_some, hunann b hb hu] at htag
    exact htable.2.2 r hr (Option.some.inj htag).symm
  have hseq : (adopt b tag s).seq = { s.seq with bite := some { b with tag := tag, unannounced := false } } := by
    simp [adopt]
  have hstore : (adopt b tag s).store.table = s.store.table ∨
      (adopt b tag s).store.table = enterRecord tag s.store.table := by
    simp only [adopt, setSeq_store, setStickyIf_frame, setStore_store]
    split_ifs
    · exact .inr rfl
    · exact .inl rfl
  have hldr : (adopt b tag s).ldr = s.ldr := by simp
  generalize adopt b tag s = t at hseq hstore hldr
  have hlast : t.atLast = s.atLast := by simp [State.atLast, State.position, hldr]
  refine ⟨?_, ?_, ?_, ?_, ?_, ?_⟩
  · rcases hstore with e | e
    · rwa [e]
    · rw [e]
      exact htable.of_tags (enterRecord_tags _ _)
  · simpa [BiteLawful, hseq, hb] using hbite
  · intro r hr he
    rcases hstore with e | e
    · exact absurd he (hnone r (e ▸ hr))
    · rcases tag_of_mem_enterRecord (e ▸ hr) he with htag | hr
      · simp [hseq, htag]
      · exact absurd he (hnone r hr)
  · simp [UnannouncedLawful, hseq]
  · simpa [PartnerLawful, hseq, hlast, hb] using hpartner
  · simpa [StandLawful, hseq, hlast, hldr] using hstand

theorem handOffLawful_couple {b : Bite} (tag : Tag) (h : HandOffLawful s) (hb : s.seq.bite = some b)
    (hs : s.seq.stand = .threading) : HandOffLawful (couple b tag s) := by
  have hrun : s.ldr.phase = .running := h.running (by simp [hs])
  obtain ⟨htable, hbite, hentered, hunann, hpartner, hstand⟩ := h
  have hnotLast : s.atLast = false := by
    have := hstand.2
    simpa [hs] using this
  have hseq : (couple b tag s).seq = { stand := .coupled, bite := some { b with partner := some tag } } := by
    simp [couple]
  have hstore : (couple b tag s).store = s.store := by simp
  have hldr : (couple b tag s).ldr = s.ldr := by simp
  generalize couple b tag s = t at hseq hstore hldr
  have hlast : t.atLast = false := by rw [← hnotLast]; simp [State.atLast, State.position, hldr]
  refine ⟨by rwa [hstore], by simp [BiteLawful, hseq, StandState.biting], ?_, ?_, ?_, ?_⟩
  · simpa [EnteredLawful, hseq, hstore, hb] using hentered
  · simpa [UnannouncedLawful, hseq, hb] using hunann
  · simp [PartnerLawful, hseq, hlast]
  · simp [StandLawful, hseq, hlast, hldr, hrun]

end Bites

section Tables

theorem handOffLawful_of_entered_kept (h : HandOffLawful s) (hseq : t.seq = s.seq) (hldr : t.ldr = s.ldr)
    (ht : TableLawful t.store.table)
    (he : ∀ r ∈ t.store.table, r.state = .entered → s.seq.bite.map Bite.tag = some r.tag) : HandOffLawful t := by
  obtain ⟨-, hrest⟩ := h
  refine ⟨ht, ?_⟩
  simp only [BiteLawful, EnteredLawful, UnannouncedLawful, PartnerLawful, StandLawful, State.atLast, State.position,
    hseq, hldr] at hrest ⊢
  exact ⟨hrest.1, he, hrest.2.2⟩

theorem tag_of_biteAwaits {tag : Tag} (h : s.biteAwaits tag = true) : s.seq.bite.map Bite.tag = some tag := by
  unfold State.biteAwaits at h
  cases hb : s.seq.bite with
  | none => simp [hb] at h
  | some b =>
    simp only [hb, Bool.and_eq_true, beq_iff_eq] at h
    simp [h.1.1]

theorem handOffLawful_appendRecord {tag : Tag} (h : HandOffLawful s) (h0 : tag ≠ 0)
    (hfree : findRecord s.store.table tag = none) (hlen : s.store.table.length < 3) :
    HandOffLawful (appendRecord tag s) := by
  have hgrown : TableLawful (s.store.table ++ [s.closedRecord tag]) := h.1.append hlen h0 hfree
  have hold : ∀ r ∈ s.store.table ++ [s.closedRecord tag], r.state = .entered →
      s.seq.bite.map Bite.tag = some r.tag := by
    intro r hr he
    obtain hr | rfl : r ∈ s.store.table ∨ r = s.closedRecord tag := by simpa using hr
    · exact h.entered_tag r hr he
    · cases he
  refine handOffLawful_of_entered_kept h (by simp) (by simp) ?_ fun r hr he => ?_
  · simp only [appendRecord, setStore_store]
    split_ifs
    · exact hgrown.of_tags (enterRecord_tags _ _)
    · exact hgrown
  · simp only [appendRecord, setStore_store] at hr
    split_ifs at hr with hbind
    · rcases tag_of_mem_enterRecord hr he with rfl | hr
      · exact tag_of_biteAwaits hbind
      · exact hold r hr he
    · exact hold r hr he

theorem handOffLawful_replaceRecord (tag : Tag) (h : HandOffLawful s) : HandOffLawful (replaceRecord tag s) := by
  refine handOffLawful_of_entered_kept h (by simp) (by simp) (h.1.of_tags ?_) fun r hr he => ?_
  · simp only [replaceRecord, setStore_store, List.map_map, Function.comp_def]
    congr 1
    funext r
    split_ifs with htag
    · exact htag.symm
    · rfl
  · simp only [replaceRecord, setStore_store] at hr
    obtain ⟨x, hx, rfl⟩ := List.mem_map.mp hr
    split_ifs at he ⊢
    · cases he
    · exact h.entered_tag x hx he

/-- R97: a close appends only a new tag, other than 0, while the table has room. -/
theorem of_closeOutcome_appended {tag : Tag} (h : s.closeOutcome tag = .appended) :
    tag ≠ 0 ∧ findRecord s.store.table tag = none ∧ s.store.table.length < 3 := by
  revert h
  unfold State.closeOutcome
  cases hfind : findRecord s.store.table tag with
  | some r =>
    dsimp only
    split_ifs <;> simp
  | none =>
    dsimp only
    split_ifs with h0 hfall hlen
    case neg => exact fun _ => ⟨h0, rfl, not_le.mp hlen⟩
    all_goals simp

theorem handOffLawful_close (tag : Tag) (h : HandOffLawful s) : HandOffLawful (close tag s) := by
  unfold close
  cases hout : s.closeOutcome tag with
  | refused | refusedFull => exact handOffLawful_of_parts h (by simp) (by simp) (by simp)
  | replaced => exact handOffLawful_replaceRecord tag h
  | appended =>
    obtain ⟨h0, hfree, hlen⟩ := of_closeOutcome_appended hout
    exact handOffLawful_appendRecord h h0 hfree hlen

theorem handOffLawful_cancel (tag : Tag) (h : HandOffLawful s) : HandOffLawful (cancel tag s) := by
  have hrefused : HandOffLawful (setSticky .closeRefused s) := handOffLawful_of_parts h (by simp) (by simp) (by simp)
  unfold cancel
  repeat' split
  · refine handOffLawful_of_entered_kept h rfl rfl (h.1.of_sublist List.filter_sublist) fun r hr he => ?_
    exact h.entered_tag r (List.mem_of_mem_filter hr) he
  all_goals exact hrefused

end Tables

section Outcomes

theorem handOffLawful_leaveHoldIfReady (h : HandOffLawful s) : HandOffLawful (leaveHoldIfReady s) := by
  rcases leaveHoldIfReady_cases s with ⟨e, -⟩ | ⟨e, hs, -⟩
  · rwa [e]
  · have hnb : s.seq.stand.biting = false := by simp [hs, StandState.biting]
    have hrun : s.ldr.phase = .running := h.running (by simp [hs])
    rw [e]
    exact h.keep_no_bite hnb (by simp) (by simp [h.bite_eq_none hnb]) (by simp [StandState.biting])
      fun hp => absurd hrun (by simpa using hp)

theorem handOffLawful_enterHoldIfActive (h : HandOffLawful s) : HandOffLawful (enterHoldIfActive s) := by
  rcases enterHoldIfActive_cases s with ⟨e, -⟩ | ⟨e, -, htracks⟩
  · rwa [e]
  · have hrun : s.ldr.phase = .running := h.running fun hu => by rw [hu] at htracks; cases htracks
    rw [e]
    exact handOffLawful_retired h (by simp) (by simp) (by simp [StandState.biting])
      fun hp => absurd hrun (by simpa using hp)

theorem ForceDoes.handOffLawful (hd : ForceDoes s t) (h : HandOffLawful s) : HandOffLawful t := by
  cases hd
  case loadOn event _ =>
    exact handOffLawful_loadOn event _ (s := s.setSens { s.sens with loaded := true, run := none }) h
  case loadOff event _ =>
    exact handOffLawful_leaveHoldIfReady
      (handOffLawful_loadOff event (s := s.setSens { s.sens with loaded := false, run := none }) h)
  all_goals exact handOffLawful_of_parts h (by simp) (by simp) (by simp)

theorem handOffLawful_resumed (h : HandOffLawful s) : HandOffLawful (resumed s) := by
  unfold resumed
  split_ifs
  · exact handOffLawful_leaveHoldIfReady (s := alignDetector (forceArrives s)) h
  · exact h

theorem handOffLawful_takeForce (f : Nat) (h : HandOffLawful s) : HandOffLawful (takeForce f s) := by
  rcases takeForce_cases f s with e | ⟨-, hd⟩
  · rw [e]
    exact handOffLawful_resumed h
  · exact hd.handOffLawful (handOffLawful_resumed h)

theorem standAfter_biting (s : State) : (standAfter s).biting = s.seq.stand.biting := by
  unfold standAfter
  cases s.seq.stand <;> dsimp only <;> split_ifs <;> rfl

theorem atLast_of_leadsTail (h : leadsTail s = true) : s.atLast = false := by
  simp only [leadsTail, Bool.and_eq_true, Bool.not_eq_true'] at h
  exact h.1.2

/-- R6, R17: the reports of an expiry move the stand between EMPTY and AWAITING, and from COUPLED to TAILING before position N. -/
theorem handOffLawful_reports (h : HandOffLawful s) (hs : s.seq.stand ≠ .unconfigured) :
    HandOffLawful (leadTail (openWindows (dropMissed (dropOverdue (advanceAll s))))) := by
  have hrun := h.running hs
  obtain ⟨-, hseq, -⟩ := leadTail_spec s
  have hstore : (leadTail (openWindows (dropMissed (dropOverdue (advanceAll s))))).store = s.store := by simp
  have hldr : (leadTail (openWindows (dropMissed (dropOverdue (advanceAll s))))).ldr = s.ldr := by simp
  generalize leadTail (openWindows (dropMissed (dropOverdue (advanceAll s)))) = t at hseq hstore hldr
  dsimp only at hseq
  have hlast : t.atLast = s.atLast := by simp [State.atLast, State.position, hldr]
  obtain ⟨htable, hbite, hentered, hunann, hpartner, hstand⟩ := h
  have hthreading : (standAfter s != .threading) = (s.seq.stand != .threading) := by
    unfold standAfter
    cases s.seq.stand <;> dsimp only <;> split_ifs <;> rfl
  refine ⟨by rwa [hstore], ?_, ?_, ?_, ?_, ?_⟩
  · simpa [BiteLawful, hseq, standAfter_biting] using hbite
  · simpa [EnteredLawful, hseq, hstore] using hentered
  · simpa [UnannouncedLawful, hseq] using hunann
  · simpa only [PartnerLawful, hseq, hlast, hthreading] using hpartner
  · refine ⟨fun hp => absurd (hldr ▸ hrun) hp, fun _ hl => ?_⟩
    rw [hlast] at hl
    have hlead : leadsTail s = false := by
      rw [Bool.eq_false_iff]
      intro hlead
      rw [atLast_of_leadsTail hlead] at hl
      cases hl
    obtain ⟨hth, hta⟩ := hstand.2 hs hl
    rw [hseq]
    unfold standAfter
    cases hst : s.seq.stand <;> simp_all <;> split_ifs <;> simp

theorem handOffLawful_predict (h : HandOffLawful s) : HandOffLawful (predict s) := by
  unfold predict
  repeat' split
  all_goals first | exact h | exact handOffLawful_loadOn _ _ h | exact handOffLawful_loadOff _ h

theorem handOffLawful_impactStep (h : HandOffLawful s) : HandOffLawful (impactStep s) := by
  unfold impactStep
  cases hb : s.seq.bite with
  | none => exact h
  | some b =>
    obtain ⟨htable, hbite, hentered, hunann, hpartner, hstand⟩ := h
    exact ⟨htable, by simpa [BiteLawful, hb] using hbite, by simpa [EnteredLawful, hb] using hentered,
      by simpa [UnannouncedLawful, hb] using hunann, by simpa [PartnerLawful, hb] using hpartner, hstand⟩

theorem handOffLawful_endImpact {b : Bite} (n : Nat) (h : HandOffLawful s) (hb : s.seq.bite = some b) :
    HandOffLawful (s.setSeq { s.seq with bite := some (endImpact b n) }) := by
  obtain ⟨htable, hbite, hentered, hunann, hpartner, hstand⟩ := h
  exact ⟨htable, by simpa [BiteLawful, hb] using hbite, by simpa [EnteredLawful, hb, endImpact] using hentered,
    by simpa [UnannouncedLawful, hb, endImpact] using hunann, by simpa [PartnerLawful, hb, endImpact] using hpartner,
    hstand⟩

theorem handOffLawful_headOnAction (sender : BitVec 5) (tag : Tag) (age : BitVec 16) (h : HandOffLawful s) :
    HandOffLawful (headOnAction sender tag age s) := by
  have hnotice : HandOffLawful (trackNotice .head tag age s) := handOffLawful_of_parts h (by simp) (by simp) (by simp)
  unfold headOnAction
  split
  · unfold upstreamHead
    split
    · split_ifs with hu
      · exact handOffLawful_adopt tag h ‹_› hu
      · exact hnotice
    · exact hnotice
  · unfold downstreamHead
    split
    · exact handOffLawful_couple tag h ‹_› ‹_›
    · exact handOffLawful_of_parts h (by simp) (by simp) (by simp)
  all_goals exact h

theorem handOffLawful_restartStation (target : Byte) (h : HandOffLawful s) (hrun : s.ldr.phase = .running) :
    HandOffLawful (restartStation target s) := by
  rcases restartStation_cases target s with e | ⟨e, -⟩ | ⟨e, -⟩
  · rwa [e]
  · exact handOffLawful_of_parts h (by simp [e]) (by simp [e]) (by simp [e])
  · rw [e]
    refine handOffLawful_enterHoldIfActive (handOffLawful_of_no_bite (by simp) (by simp [StandState.biting]) ?_ ?_ ?_)
    · simp [TableLawful]
    · simp
    · simp [hrun]

theorem running_of_hearsSound (h : hearsSound s = true) : s.ldr.phase = .running :=
  ((hearsSound_iff s).mp h).1.1

/-- R177: before the link is given the stand is UNCONFIGURED, and so without a bite. -/
theorem HandOffLawful.unlinked (h : HandOffLawful s) (hp : s.ldr.phase ≠ .running) :
    s.seq.stand = .unconfigured ∧ s.seq.stand.biting = false ∧ s.seq.bite = none := by
  obtain ⟨-, -, -, -, -, hconf, -⟩ := id h
  have hu := hconf hp
  have hnb : s.seq.stand.biting = false := by rw [hu]; rfl
  exact ⟨hu, hnb, h.bite_eq_none hnb⟩

theorem Does.handOffLawful (hd : Does s t) (h : HandOffLawful s) : HandOffLawful t := by
  have hclean (marker : Bool) : HandOffLawful (receiveClean marker s) :=
    handOffLawful_of_parts h (by simp) (by simp) (by simp)
  cases hd
  case idle => exact h
  case link hd =>
    obtain ⟨hldr, hseq, -, -, -, hstore, -⟩ := hd.sameStand
    exact handOffLawful_of_parts h (by rw [hstore]) hseq hldr
  case reset =>
    exact handOffLawful_of_no_bite rfl rfl ⟨Nat.zero_le _, .nil, nofun⟩ nofun fun _ => rfl
  case release hp =>
    obtain ⟨hu, hnb, hb⟩ := h.unlinked (by simp [hp])
    exact h.keep_no_bite hnb rfl hb hnb fun _ => hu
  case giveLink hp =>
    obtain ⟨hu, hnb, hb⟩ := h.unlinked (by simp [hp])
    exact h.keep_no_bite hnb rfl hb hnb fun _ => hu
  case configure bytes hp _ =>
    obtain ⟨-, hnb, -⟩ := h.unlinked (by simp [hp])
    refine handOffLawful_enterHoldIfActive (h.keep_no_bite hnb rfl rfl rfl fun hp => ?_)
    exact absurd rfl hp
  case force f _ => exact handOffLawful_takeForce f h
  case hotMetal level =>
    obtain ⟨_, _, e | e⟩ := readHotMetal_cases level s
    · rw [e]
      exact h
    · exact handOffLawful_of_parts h (by simp [e]) (by simp [e]) (by simp [e])
  case expiry hs => exact handOffLawful_predict (handOffLawful_reports h hs)
  case speed =>
    have hi := handOffLawful_impactStep (s := factorStep (ageViews s))
      (handOffLawful_of_parts h (by simp) (by simp) (by simp))
    exact handOffLawful_of_parts hi (by simp) (by simp) (by simp)
  case impactEnd b hb => exact handOffLawful_endImpact _ h hb
  case lineActive => exact handOffLawful_enterHoldIfActive h
  case qualified => exact handOffLawful_leaveHoldIfReady h
  case headOn => exact handOffLawful_headOnAction _ _ _ (hclean _)
  case close => exact handOffLawful_close _ (hclean _)
  case cancel => exact handOffLawful_cancel _ (hclean _)
  case clear => exact handOffLawful_of_parts (hclean _) rfl rfl rfl
  case restart marker target hs =>
    have hrun : (receiveClean marker s).ldr.phase = .running := running_of_hearsSound (s := s) hs
    exact handOffLawful_restartStation target (hclean marker) hrun
  all_goals exact handOffLawful_of_parts h (by simp) (by simp) (by simp)

end Outcomes

/-- Settles O5, outcome by outcome. -/
theorem handOffStaysLawful : Obligations.HandOffStaysLawful := fun _ _ =>
  step_keeps (P := HandOffLawful) (fun _ _ _ h => h) fun _ _ hd h => hd.handOffLawful h

end Sys2Proof.Machine
end

section
/-! PROOFS. R52, R54, R57, R61: which looper states and trims go with which stand states, and the bounds of the trim and its
integral. The looper is raised only beside a COUPLED stand, so every operation that leaves COUPLED must lower it; O6 is assembled
from these. -/

namespace Sys2Proof.Machine

variable {s t : State}

section States

theorem looperLawful_of_parts (h : LooperLawful s) (hldr : t.ldr = s.ldr) (hseq : t.seq.stand = s.seq.stand)
    (hlp : t.lp = s.lp) : LooperLawful t := by
  simpa only [LooperLawful, State.atLast, State.position, hldr, hseq, hlp] using h

/-- A looper that is not raised beside a stand that has the link. -/
theorem looperLawful_of_lowered (hrun : t.ldr.phase = .running) (hraised : t.lp.state.raisedOrRaising = false)
    (hlast : t.atLast = true → t.lp.state = .none)
    (htrim : t.lp.trim ≠ 0 → t.lp.state.tensionOrLowering = true ∨ t.seq.stand = .hold) : LooperLawful t :=
  ⟨fun hp => absurd hrun hp, fun hr => absurd hr (by simp [hraised]), fun _ hl => hlast hl, htrim⟩

theorem LooperLawful.running (h : LooperLawful s) (hs : s.seq.stand ≠ .unconfigured) : s.ldr.phase = .running := by
  obtain ⟨hconf, -⟩ := h
  exact not_not.mp fun hp => hs (hconf hp)

/-- R54: there is no looper after the last stand. -/
theorem LooperLawful.none_last (h : LooperLawful s) (hs : s.seq.stand ≠ .unconfigured) (hl : s.atLast = true) :
    s.lp.state = .none := by
  obtain ⟨-, -, hlast, -⟩ := h
  exact hlast hs hl

/-- R57: outside HOLD a trim other than 0 stands in TENSION or LOWERING only. -/
theorem LooperLawful.trim_state (h : LooperLawful s) (hs : s.seq.stand ≠ .hold) (h0 : s.lp.trim ≠ 0) :
    s.lp.state.tensionOrLowering = true := by
  obtain ⟨-, -, -, htrim⟩ := h
  exact (htrim h0).resolve_right hs

theorem LooperLawful.not_raised (h : LooperLawful s) (hs : s.seq.stand ≠ .coupled) :
    s.lp.state.raisedOrRaising = false := by
  obtain ⟨-, hraised, -⟩ := h
  exact Bool.eq_false_iff.mpr fun hr => hs (hraised hr)

/-- The stand moves between states other than COUPLED: an unraised looper stays as it is. -/
theorem LooperLawful.of_stand (h : LooperLawful s) (hs : s.seq.stand ≠ .coupled) (hu : s.seq.stand ≠ .unconfigured)
    (hh : s.seq.stand ≠ .hold) (hldr : t.ldr = s.ldr) (hlp : t.lp = s.lp) : LooperLawful t := by
  have hrun := h.running hu
  have hraised := h.not_raised hs
  obtain ⟨-, -, hlast, htrim⟩ := h
  refine looperLawful_of_lowered (by rw [hldr, hrun]) (by rwa [hlp]) (fun hl => ?_) fun h0 => ?_
  · rw [hlp]
    exact hlast hu (by simpa [State.atLast, State.position, hldr] using hl)
  · rw [hlp] at h0 ⊢
    exact .inl ((htrim h0).resolve_right hh)

end States

section Commands

/-- R56: LOWER leaves no looper raised. -/
theorem loweredLooper_spec (s : State) (tag : Tag) :
    (loweredLooper s tag).state.raisedOrRaising = false ∧ (s.lp.state = .none → (loweredLooper s tag).state = .none) ∧
    (loweredLooper s tag).trim = s.lp.trim ∧
    (s.lp.state.tensionOrLowering = true → (loweredLooper s tag).state.tensionOrLowering = true) := by
  cases h : s.lp.state <;> simp [loweredLooper, h, LooperState.raisedOrRaising, LooperState.tensionOrLowering]

@[simp] theorem lowerLooper_lp (tag : Tag) (s : State) : (lowerLooper tag s).lp = loweredLooper s tag := by
  cases h : s.lp.state <;> simp [lowerLooper, startLowering, loweredLooper, h]

/-- R57: HOLD-LOWER leaves no looper raised. -/
theorem holdLowerLooper_spec (tag : Tag) (s : State) :
    (holdLowerLooper tag s).lp.state.raisedOrRaising = false ∧
    (s.lp.state = .none → (holdLowerLooper tag s).lp.state = .none) ∧
    (holdLowerLooper tag s).lp.trim = s.lp.trim := by
  cases h : s.lp.state <;> simp [holdLowerLooper, startLowering, h, LooperState.raisedOrRaising]

theorem looperAfterHold_spec (s : State) (h : s.lp.state.raisedOrRaising = false) :
    (looperAfterHold s).state.raisedOrRaising = false ∧ (s.lp.state = .none → (looperAfterHold s).state = .none) ∧
    (looperAfterHold s).trim = 0 := by
  cases hs : s.lp.state <;> simp_all [looperAfterHold, LooperState.raisedOrRaising]

end Commands

section Outcomes

theorem looperLawful_loadOn (event : Instant) (p : Bool) (h : LooperLawful s) : LooperLawful (loadOn event p s) := by
  unfold loadOn
  split
  case h_1 hs | h_2 hs => exact h.of_stand (by simp [hs]) (by simp [hs]) (by simp [hs]) (by simp) (by simp)
  all_goals exact h

theorem looperLawful_closeBite (event : Instant) (b : Bite) (h : LooperLawful s) (hs : s.seq.stand.biting = true) :
    LooperLawful (closeBite event b s) := by
  have hu : s.seq.stand ≠ .unconfigured := fun hu => by rw [hu] at hs; cases hs
  have hrun : (closeBite event b s).ldr.phase = .running := by simpa using h.running hu
  obtain ⟨-, -, -, hlp, -⟩ := closeBite_spec event b s
  have hatLast : (closeBite event b s).atLast = s.atLast := by simp [State.atLast, State.position]
  obtain ⟨hl1, hl2, hl3, -⟩ := loweredLooper_spec (s.setLp { s.lp with trim := 0 }) b.tag
  have hlast : s.atLast = true → s.lp.state = .none := h.none_last hu
  have htrim : (closeBite event b s).lp.trim = 0 := by
    rw [hlp]
    split_ifs
    · simpa using hl3
    · rfl
  refine looperLawful_of_lowered hrun ?_ (fun hl => ?_) (fun h0 => absurd htrim h0)
  · rw [hlp]
    split_ifs with hlate
    · simpa using hl1
    · by_cases hc : s.seq.stand = .coupled
      · have : s.lp.state = .none := hlast (by simpa [hc] using hlate)
        simp [this, LooperState.raisedOrRaising]
      · exact h.not_raised hc
  · rw [hatLast] at hl
    rw [hlp, if_neg (by simp [hl])]
    exact hlast hl

theorem looperLawful_loadOff (event : Instant) (h : LooperLawful s) : LooperLawful (loadOff event s) := by
  unfold loadOff
  split
  case h_1 hs _ | h_2 hs _ | h_3 hs _ => exact looperLawful_closeBite event _ h (by rw [hs]; rfl)
  case h_4 => exact h

theorem looperLawful_leaveHoldIfReady (h : LooperLawful s) : LooperLawful (leaveHoldIfReady s) := by
  rcases leaveHoldIfReady_cases s with ⟨e, -⟩ | ⟨e, hs, -⟩
  · rwa [e]
  · obtain ⟨hraised, hnone, htrim⟩ := looperAfterHold_spec s (h.not_raised (by simp [hs]))
    have hatLast : (holdExit s).atLast = s.atLast := by simp [State.atLast, State.position]
    rw [e]
    refine looperLawful_of_lowered (by simpa using h.running (by simp [hs])) (by simpa using hraised) (fun hl => ?_)
      (by simp [htrim])
    rw [holdExit_lp]
    exact hnone (h.none_last (by simp [hs]) (hatLast ▸ hl))

theorem looperLawful_enterHoldIfActive (h : LooperLawful s) : LooperLawful (enterHoldIfActive s) := by
  rcases enterHoldIfActive_cases s with ⟨e, -⟩ | ⟨e, -, htracks⟩
  · rwa [e]
  · have hu : s.seq.stand ≠ .unconfigured := fun hu => by rw [hu] at htracks; cases htracks
    obtain ⟨hraised, hnone, -⟩ := holdLowerLooper_spec s.biteTag s
    have hatLast : (holdEntry s).atLast = s.atLast := by simp [State.atLast, State.position]
    rw [e]
    exact looperLawful_of_lowered (by simpa using h.running hu) (by simpa using hraised)
      (fun hl => hnone (h.none_last hu (hatLast ▸ hl))) (by simp)

theorem ForceDoes.looperLawful (hd : ForceDoes s t) (h : LooperLawful s) : LooperLawful t := by
  cases hd
  case loadOn event _ => exact looperLawful_loadOn event _ (s := s.setSens { s.sens with loaded := true, run := none }) h
  case loadOff event _ =>
    exact looperLawful_leaveHoldIfReady
      (looperLawful_loadOff event (s := s.setSens { s.sens with loaded := false, run := none }) h)
  all_goals exact looperLawful_of_parts h (by simp) (by simp) (by simp)

theorem looperLawful_takeForce (f : Nat) (h : LooperLawful s) : LooperLawful (takeForce f s) := by
  have hr : LooperLawful (resumed s) := by
    unfold resumed
    split_ifs
    · exact looperLawful_leaveHoldIfReady (s := alignDetector (forceArrives s)) h
    · exact h
  rcases takeForce_cases f s with e | ⟨-, hd⟩
  · rwa [e]
  · exact hd.looperLawful hr

theorem standAfter_coupled_iff (h : leadsTail s = false) : standAfter s = .coupled ↔ s.seq.stand = .coupled := by
  unfold standAfter
  rw [h]
  repeat' split
  all_goals simp_all

theorem standAfter_hold_iff (s : State) : standAfter s = .hold ↔ s.seq.stand = .hold := by
  unfold standAfter
  repeat' split
  all_goals simp_all

/-- R17: COUPLED is left for TAILING only with the looper lowered. -/
theorem looperLawful_reports (h : LooperLawful s) (hs : s.seq.stand ≠ .unconfigured) :
    LooperLawful (leadTail (openWindows (dropMissed (dropOverdue (advanceAll s))))) := by
  have hrun := h.running hs
  obtain ⟨-, hseq, hlp, -⟩ := leadTail_spec s
  have hldr : (leadTail (openWindows (dropMissed (dropOverdue (advanceAll s))))).ldr = s.ldr := by simp
  generalize leadTail (openWindows (dropMissed (dropOverdue (advanceAll s)))) = t at hseq hlp hldr
  dsimp only at hseq hlp
  have hatLast : t.atLast = s.atLast := by simp [State.atLast, State.position, hldr]
  cases hlead : leadsTail s with
  | true =>
    rw [hlead, if_pos rfl] at hlp
    obtain ⟨hraised, hnone, htrim, hlow⟩ := loweredLooper_spec s s.biteTag
    have hcoupled : s.seq.stand = .coupled := by
      simp only [leadsTail, Bool.and_eq_true, beq_iff_eq] at hlead
      exact hlead.1.1
    refine looperLawful_of_lowered (hldr ▸ hrun) (hlp ▸ hraised) (fun hl => hlp ▸ hnone (h.none_last hs (hatLast ▸ hl)))
      fun h0 => ?_
    rw [hlp, htrim] at h0
    rw [hlp]
    exact .inl (hlow (h.trim_state (by simp [hcoupled]) h0))
  | false =>
    rw [hlead, if_neg nofun] at hlp
    have hcoupled : t.seq.stand = .coupled ↔ s.seq.stand = .coupled := hseq ▸ standAfter_coupled_iff hlead
    have hhold : t.seq.stand = .hold ↔ s.seq.stand = .hold := hseq ▸ standAfter_hold_iff s
    obtain ⟨-, hraised, hlast, htrim⟩ := h
    refine ⟨fun hp => absurd (hldr ▸ hrun) hp, ?_, ?_, ?_⟩
    · rwa [hlp, hcoupled]
    · rw [hlp, hatLast]
      exact fun _ => hlast hs
    · rwa [hlp, hhold]

theorem looperLawful_predict (h : LooperLawful s) : LooperLawful (predict s) := by
  unfold predict
  repeat' split
  all_goals first | exact h | exact looperLawful_loadOn _ _ h | exact looperLawful_loadOff _ h

theorem raiseLooper_spec (s : State) :
    ((raiseLooper s).lp.state = .none ↔ s.lp.state = .none) ∧
    ((raiseLooper s).lp = s.lp ∨ (raiseLooper s).lp.trim = 0) := by
  cases h : s.lp.state <;> simp [raiseLooper, h]

theorem looperLawful_couple (b : Bite) (tag : Tag) (h : LooperLawful s) (hs : s.seq.stand = .threading) :
    LooperLawful (couple b tag s) := by
  have hrun : s.ldr.phase = .running := h.running (by simp [hs])
  obtain ⟨hnone, htrim⟩ := raiseLooper_spec (setStickyIf (tag != b.tag) .tagMismatch s)
  have hstand : (couple b tag s).seq.stand = .coupled := by simp [couple]
  have hlp : (couple b tag s).lp = (raiseLooper (setStickyIf (tag != b.tag) .tagMismatch s)).lp := rfl
  have hatLast : (couple b tag s).atLast = s.atLast := by simp [State.atLast, State.position]
  refine ⟨fun hp => absurd hrun (by simpa using hp), fun _ => hstand, fun _ hl => ?_, fun h0 => ?_⟩
  · rw [hlp, hnone]
    simpa using h.none_last (by simp [hs]) (hatLast ▸ hl)
  · rw [hlp] at h0 ⊢
    rcases htrim with e | e
    · rw [e] at h0 ⊢
      simp only [setStickyIf_frame] at h0 ⊢
      exact .inl (h.trim_state (by simp [hs]) h0)
    · exact absurd e h0

theorem looperLawful_headOnAction (sender : BitVec 5) (tag : Tag) (age : BitVec 16) (h : LooperLawful s) :
    LooperLawful (headOnAction sender tag age s) := by
  unfold headOnAction
  split
  · unfold upstreamHead
    split
    · split_ifs
      · exact looperLawful_of_parts h (by simp) (by simp [adopt]) (by simp)
      · exact looperLawful_of_parts h (by simp) (by simp) (by simp)
    · exact looperLawful_of_parts h (by simp) (by simp) (by simp)
  · unfold downstreamHead
    split
    · exact looperLawful_couple _ tag h ‹_›
    · exact looperLawful_of_parts h (by simp) (by simp) (by simp)
  all_goals exact h

end Outcomes

section Periods

theorem trimAtRest_ne_zero (h : s.trimAtRest ≠ 0) : s.seq.stand = .hold := by
  unfold State.trimAtRest at h
  split_ifs at h with hs
  · exact hs
  · exact absurd rfl h

/-- An operation has ended: the looper is at rest, or stalled, with the trim frozen in HOLD only. -/
theorem looperLawful_of_rest (h : LooperLawful s) (hldr : t.ldr = s.ldr) (hseq : t.seq = s.seq)
    (hstate : s.lp.state ≠ .none) (hraised : t.lp.state.raisedOrRaising = false) (htrim : t.lp.trim = s.trimAtRest) :
    LooperLawful t := by
  have hatLast : t.atLast = s.atLast := by simp [State.atLast, State.position, hldr]
  obtain ⟨hconf, -, hlast, -⟩ := h
  refine ⟨by rwa [hldr, hseq], by simp [hraised], fun hu hl => ?_, fun h0 => ?_⟩
  · rw [hatLast] at hl
    rw [hseq] at hu
    exact absurd (hlast hu hl) hstate
  · rw [htrim] at h0
    exact .inr (hseq ▸ trimAtRest_ne_zero h0)

theorem looperLawful_park (h : LooperLawful s) (hstate : s.lp.state ≠ .none) : LooperLawful (park s) :=
  looperLawful_of_rest h rfl rfl hstate rfl rfl

theorem looperLawful_stall (op : LooperOp) (tag : Tag) (h : LooperLawful s) (hstate : s.lp.state ≠ .none) :
    LooperLawful (stall op tag s) :=
  looperLawful_of_rest h (by simp) (by simp) hstate (by simp [stall, LooperState.raisedOrRaising]) (by simp [stall])

/-- A change of the looper that keeps its operation, or ends a raise in TENSION. -/
theorem looperLawful_of_operation (h : LooperLawful s) (hldr : t.ldr = s.ldr) (hseq : t.seq = s.seq)
    (hstate : s.lp.state ≠ .none) (hraised : t.lp.state.raisedOrRaising = s.lp.state.raisedOrRaising)
    (hlow : s.lp.state.tensionOrLowering = true → t.lp.state.tensionOrLowering = true)
    (htrim : t.lp.trim = s.lp.trim ∨ t.lp.trim = 0 ∨ t.lp.state.tensionOrLowering = true) : LooperLawful t := by
  have hatLast : t.atLast = s.atLast := by simp [State.atLast, State.position, hldr]
  obtain ⟨hconf, hr, hlast, ht⟩ := h
  refine ⟨by rwa [hldr, hseq], by rwa [hraised, hseq], fun hu hl => ?_, fun h0 => ?_⟩
  · rw [hatLast] at hl
    rw [hseq] at hu
    exact absurd (hlast hu hl) hstate
  · rw [hseq]
    rcases htrim with e | e | e
    · exact (ht (e ▸ h0)).imp_left hlow
    · exact absurd e h0
    · exact .inl e

@[simp] theorem rampUp_state (s : State) : (rampUp s).lp.state = s.lp.state ∧ (rampUp s).lp.trim = s.lp.trim ∧
    (rampUp s).lp.integral = s.lp.integral := by
  unfold rampUp
  split <;> simp

@[simp] theorem rampDown_state (s : State) : (rampDown s).lp.state = s.lp.state ∧ (rampDown s).lp.trim = s.lp.trim ∧
    (rampDown s).lp.integral = s.lp.integral := by
  unfold rampDown
  split <;> simp

theorem looperLawful_raisingPeriod {timer : Nat} {tag : Tag} (h : LooperLawful s)
    (hs : s.lp.state = .raising timer tag) : LooperLawful (raisingPeriod timer tag s) := by
  have hramp : LooperLawful (rampUp s) :=
    looperLawful_of_operation h (by simp) (by simp) (by simp [hs]) (by simp) (by simp) (by simp)
  unfold raisingPeriod
  dsimp only
  split_ifs
  · exact looperLawful_of_operation hramp (by simp) (by simp) (by simp [hs])
      (by simp [hs, enterTension, LooperState.raisedOrRaising]) (by simp [enterTension, LooperState.tensionOrLowering])
      (by simp [enterTension])
  · exact looperLawful_stall _ _ hramp (by simp [hs])
  · exact looperLawful_of_operation hramp (by simp) (by simp) (by simp [hs])
      (by simp [hs, LooperState.raisedOrRaising]) (by simp [hs, LooperState.tensionOrLowering]) (by simp)

theorem looperLawful_loweringPeriod {timer : Nat} {tag : Tag} (h : LooperLawful s)
    (hs : s.lp.state = .lowering timer tag) : LooperLawful (loweringPeriod timer tag s) := by
  have hramp : LooperLawful (rampDown s) :=
    looperLawful_of_operation h (by simp) (by simp) (by simp [hs]) (by simp) (by simp) (by simp)
  unfold loweringPeriod
  dsimp only
  split_ifs
  · exact looperLawful_park hramp (by simp [hs])
  · exact looperLawful_stall _ _ hramp (by simp [hs])
  · exact looperLawful_of_operation hramp (by simp) (by simp) (by simp [hs])
      (by simp [hs, LooperState.raisedOrRaising]) (by simp [LooperState.tensionOrLowering]) (by simp)

theorem looperLawful_tensionPeriod (h : LooperLawful s) (hs : s.lp.state = .tension) :
    LooperLawful (tensionPeriod s) := by
  unfold tensionPeriod
  split_ifs <;>
    exact looperLawful_of_operation h rfl rfl (by simp [hs]) (by simp) (by simp)
      (.inr (.inr (by simp [hs, LooperState.tensionOrLowering])))

theorem looperLawful_looperPeriod (h : LooperLawful s) : LooperLawful (looperPeriod s) := by
  unfold looperPeriod
  split
  · exact h
  cases hs : s.lp.state with
  | none => exact h
  | parked => exact looperLawful_of_operation h rfl rfl (by simp [hs]) (by simp [hs]) (by simp [hs]) (by simp)
  | raising timer tag => exact looperLawful_raisingPeriod h hs
  | tension => exact looperLawful_tensionPeriod h hs
  | lowering timer tag => exact looperLawful_loweringPeriod h hs
  | stalled op tag =>
    cases op with
    | raise => exact h
    | lower =>
      dsimp only
      split_ifs
      · exact looperLawful_park h (by simp [hs])
      · exact h

end Periods

section Steps

/-- A stand started afresh: NONE at position N, PARKED elsewhere (R53). -/
theorem looperLawful_of_fresh (hrun : t.ldr.phase = .running)
    (hstate : t.lp.state = if t.atLast then .none else .parked) (htrim : t.lp.trim = 0) : LooperLawful t := by
  refine looperLawful_of_lowered hrun ?_ (fun hl => ?_) fun h0 => absurd htrim h0
  · rw [hstate]
    split_ifs <;> rfl
  · rw [hstate, if_pos hl]

theorem looperLawful_restartStation (target : Byte) (h : LooperLawful s) (hrun : s.ldr.phase = .running) :
    LooperLawful (restartStation target s) := by
  rcases restartStation_cases target s with e | ⟨e, -⟩ | ⟨e, -⟩
  · rwa [e]
  · exact looperLawful_of_parts h (by simp [e]) (by simp [e]) (by simp [e])
  · rw [e]
    refine looperLawful_enterHoldIfActive (looperLawful_of_fresh (by simp [hrun]) ?_ (by simp))
    simp [State.atLast, State.position]

theorem Does.looperLawful (hd : Does s t) (h : LooperLawful s) : LooperLawful t := by
  have hclean (marker : Bool) : LooperLawful (receiveClean marker s) :=
    looperLawful_of_parts h (by simp) (by simp) (by simp)
  have hunlinked (hp : s.ldr.phase ≠ .running) : s.seq.stand = .unconfigured := h.1 hp
  cases hd
  case idle => exact h
  case link hd =>
    obtain ⟨hldr, hseq, -, hlp, -⟩ := hd.sameStand
    exact looperLawful_of_parts h hldr (by rw [hseq]) hlp
  case reset => exact ⟨fun _ => rfl, nofun, nofun, fun h0 => absurd rfl h0⟩
  case release hp =>
    have hu := hunlinked (by simp [hp])
    obtain ⟨-, hr, -, ht⟩ := h
    exact ⟨fun _ => hu, hr, fun hc => absurd hu hc, ht⟩
  case giveLink hp =>
    have hu := hunlinked (by simp [hp])
    obtain ⟨-, hr, -, ht⟩ := h
    exact ⟨fun _ => hu, hr, fun hc => absurd hu hc, ht⟩
  case configure => exact looperLawful_enterHoldIfActive (looperLawful_of_fresh rfl rfl rfl)
  case force f _ => exact looperLawful_takeForce f h
  case hotMetal level =>
    obtain ⟨_, _, e | e⟩ := readHotMetal_cases level s
    · rw [e]
      exact h
    · exact looperLawful_of_parts h (by simp [e]) (by simp [e]) (by simp [e])
  case expiry hs => exact looperLawful_predict (looperLawful_reports h hs)
  case looper => exact looperLawful_looperPeriod h
  case speed =>
    have hstand : (impactStep (factorStep (ageViews s))).seq.stand = s.seq.stand := by
      unfold impactStep
      split <;> simp
    exact looperLawful_of_parts h (by simp) (by simp [hstand]) (by simp)
  case lineActive => exact looperLawful_enterHoldIfActive h
  case qualified => exact looperLawful_leaveHoldIfReady h
  case headOn => exact looperLawful_headOnAction _ _ _ (hclean _)
  case restart marker target hs =>
    have hrun : (receiveClean marker s).ldr.phase = .running := running_of_hearsSound (s := s) hs
    exact looperLawful_restartStation target (hclean marker) hrun
  all_goals exact looperLawful_of_parts h (by simp) (by simp) (by simp)

end Steps

section Bounds

/-- The trim and its integral are each kept or set to 0: all that the looper does to them outside TENSION. -/
structure TrimKept (s t : State) : Prop where
  trim : t.lp.trim = s.lp.trim ∨ t.lp.trim = 0
  integral : t.lp.integral = s.lp.integral ∨ t.lp.integral = 0

theorem TrimKept.of_lp (h : t.lp = s.lp) : TrimKept s t := ⟨.inl (by rw [h]), .inl (by rw [h])⟩

theorem TrimKept.of_zero (htrim : t.lp.trim = 0) (hint : t.lp.integral = 0) : TrimKept s t := ⟨.inr htrim, .inr hint⟩

theorem TrimKept.trans {u : State} (hst : TrimKept s t) (htu : TrimKept t u) : TrimKept s u where
  trim := htu.trim.elim (fun e => e ▸ hst.trim) .inr
  integral := htu.integral.elim (fun e => e ▸ hst.integral) .inr

theorem TrimKept.bounded (hk : TrimKept s t) (hi : t.ldr.image = s.ldr.image) (h : TrimBounded s) : TrimBounded t := by
  obtain ⟨h1, h2, h3, h4⟩ := h
  rw [TrimBounded, hi]
  rcases hk.trim with e | e <;> rcases hk.integral with e' | e' <;> rw [e, e'] <;> omega

theorem lowered_trimKept {u : State} (tag : Tag) (h : t.lp = loweredLooper u tag) : TrimKept u t := by
  obtain ⟨-, -, htrim, -⟩ := loweredLooper_spec u tag
  refine ⟨.inl (h ▸ htrim), ?_⟩
  rw [h]
  cases hs : u.lp.state <;> simp [loweredLooper, hs]

theorem closeBite_trimKept (event : Instant) (b : Bite) (s : State) : TrimKept s (closeBite event b s) := by
  have hzero : TrimKept s (s.setLp { s.lp with trim := 0 }) := ⟨.inr rfl, .inl rfl⟩
  obtain ⟨-, -, -, hlp, -⟩ := closeBite_spec event b s
  split_ifs at hlp
  · rw [lowerLooper_lp] at hlp
    exact hzero.trans (lowered_trimKept b.tag hlp)
  · exact ⟨.inr (by rw [hlp]), .inl (by rw [hlp])⟩

theorem loadOff_trimKept (event : Instant) (s : State) : TrimKept s (loadOff event s) := by
  unfold loadOff
  split
  case h_1 | h_2 | h_3 => exact closeBite_trimKept _ _ _
  case h_4 => exact .of_lp rfl

theorem holdEntry_trimKept (s : State) : TrimKept s (holdEntry s) := by
  cases hs : s.lp.state <;> constructor <;> simp [holdLowerLooper, startLowering, hs]

theorem enterHoldIfActive_trimKept (s : State) : TrimKept s (enterHoldIfActive s) := by
  rcases enterHoldIfActive_cases s with ⟨e, -⟩ | ⟨e, -⟩ <;> rw [e]
  · exact .of_lp rfl
  · exact holdEntry_trimKept s

theorem leaveHoldIfReady_trimKept (s : State) : TrimKept s (leaveHoldIfReady s) := by
  rcases leaveHoldIfReady_cases s with ⟨e, -⟩ | ⟨e, -⟩ <;> rw [e]
  · exact .of_lp rfl
  · cases hs : s.lp.state <;> constructor <;> simp [looperAfterHold, hs]

theorem ForceDoes.trimKept (hd : ForceDoes s t) : TrimKept s t := by
  cases hd
  case loadOff event _ =>
    have hoff := loadOff_trimKept event (s.setSens { s.sens with loaded := false, run := none })
    exact TrimKept.trans ⟨hoff.trim, hoff.integral⟩ (leaveHoldIfReady_trimKept _)
  all_goals exact .of_lp (by simp)

theorem takeForce_trimKept (f : Nat) (s : State) : TrimKept s (takeForce f s) := by
  have hr : TrimKept s (resumed s) := by
    unfold resumed
    split_ifs
    · have hleave := leaveHoldIfReady_trimKept (alignDetector (forceArrives s))
      exact ⟨hleave.trim, hleave.integral⟩
    · exact .of_lp (by simp)
  rcases takeForce_cases f s with e | ⟨-, hd⟩
  · rwa [e]
  · exact hr.trans hd.trimKept

theorem reports_trimKept (s : State) :
    TrimKept s (leadTail (openWindows (dropMissed (dropOverdue (advanceAll s))))) := by
  obtain ⟨-, -, hlp, -⟩ := leadTail_spec s
  split_ifs at hlp
  · exact lowered_trimKept s.biteTag hlp
  · exact .of_lp hlp

theorem predict_trimKept (s : State) : TrimKept s (predict s) := by
  unfold predict
  repeat' split
  all_goals first | exact loadOff_trimKept _ _ | exact .of_lp (by simp)

theorem couple_trimKept (b : Bite) (tag : Tag) (s : State) : TrimKept s (couple b tag s) := by
  cases h : s.lp.state <;> constructor <;> simp [couple, raiseLooper, h]

theorem headOnAction_trimKept (sender : BitVec 5) (tag : Tag) (age : BitVec 16) (s : State) :
    TrimKept s (headOnAction sender tag age s) := by
  unfold headOnAction upstreamHead downstreamHead
  repeat' split
  all_goals first | exact couple_trimKept _ _ _ | exact .of_lp (by simp)

theorem rest_trimKept (hint : t.lp.integral = 0) (htrim : t.lp.trim = s.trimAtRest) : TrimKept s t := by
  refine ⟨?_, .inr hint⟩
  rw [htrim, State.trimAtRest]
  split_ifs
  · exact .inl rfl
  · exact .inr rfl

theorem park_trimKept (s : State) : TrimKept s (park s) := rest_trimKept rfl rfl

theorem stall_trimKept (op : LooperOp) (tag : Tag) (s : State) : TrimKept s (stall op tag s) :=
  rest_trimKept (by simp [stall]) (by simp [stall])

theorem raisingPeriod_trimKept (timer : Nat) (tag : Tag) (s : State) : TrimKept s (raisingPeriod timer tag s) := by
  have hramp : TrimKept s (rampUp s) := ⟨.inl (by simp), .inl (by simp)⟩
  unfold raisingPeriod
  dsimp only
  split_ifs
  · exact .of_zero rfl rfl
  · exact hramp.trans (stall_trimKept _ _ _)
  · exact hramp.trans ⟨.inl rfl, .inl rfl⟩

theorem loweringPeriod_trimKept (timer : Nat) (tag : Tag) (s : State) : TrimKept s (loweringPeriod timer tag s) := by
  have hramp : TrimKept s (rampDown s) := ⟨.inl (by simp), .inl (by simp)⟩
  unfold loweringPeriod
  dsimp only
  split_ifs
  · exact hramp.trans (park_trimKept _)
  · exact hramp.trans (stall_trimKept _ _ _)
  · exact hramp.trans ⟨.inl rfl, .inl rfl⟩

theorem clampInt_mem {lo hi : Int} (h : lo ≤ hi) (x : Int) : lo ≤ clampInt lo hi x ∧ clampInt lo hi x ≤ hi := by
  unfold clampInt
  split_ifs <;> omega

/-- R61: in TENSION the new trim and integral are clamped to their limits. -/
theorem trimBounded_tensionPeriod (h : TrimBounded s) : TrimBounded (tensionPeriod s) := by
  unfold tensionPeriod
  split_ifs
  · exact h
  · have htrim := clampInt_mem (lo := -(s.ldr.image.tMax : Int)) (hi := s.ldr.image.tMax) (by omega)
    have hint := clampInt_mem (lo := -(s.ldr.image.iMax : Int)) (hi := s.ldr.image.iMax) (by omega)
    exact ⟨(htrim _).1, (htrim _).2, (hint _).1, (hint _).2⟩

theorem trimBounded_looperPeriod (h : TrimBounded s) : TrimBounded (looperPeriod s) := by
  unfold looperPeriod
  split
  · exact h
  cases hs : s.lp.state with
  | none | parked => exact h
  | raising timer tag => exact (raisingPeriod_trimKept timer tag s).bounded (by simp) h
  | tension => exact trimBounded_tensionPeriod h
  | lowering timer tag => exact (loweringPeriod_trimKept timer tag s).bounded (by simp) h
  | stalled op tag =>
    cases op with
    | raise => exact h
    | lower =>
      dsimp only
      split_ifs
      · exact (park_trimKept s).bounded rfl h
      · exact h

theorem restartStation_trimKept (target : Byte) (s : State) : TrimKept s (restartStation target s) := by
  rcases restartStation_cases target s with e | ⟨e, -⟩ | ⟨e, -⟩
  · exact .of_lp (by rw [e])
  · exact .of_lp (by simp [e])
  · rw [e]
    exact TrimKept.trans (.of_zero (by simp) (by simp)) (enterHoldIfActive_trimKept _)

theorem restartStation_ldr (target : Byte) (s : State) : (restartStation target s).ldr = s.ldr := by
  rcases restartStation_cases target s with e | ⟨e, -⟩ | ⟨e, -⟩ <;> simp [e]

theorem takeForce_ldr (f : Nat) (s : State) : (takeForce f s).ldr = s.ldr := by
  rcases takeForce_cases f s with e | ⟨-, hd⟩
  · simp [e]
  · generalize takeForce f s = t at hd
    cases hd <;> simp

theorem Does.trimBounded (hd : Does s t) (h : TrimBounded s) : TrimBounded t := by
  have hclean (marker : Bool) : TrimBounded (receiveClean marker s) := TrimKept.bounded (.of_lp (by simp)) (by simp) h
  cases hd
  case idle => exact h
  case link hd =>
    obtain ⟨hldr, -, -, hlp, -⟩ := hd.sameStand
    exact TrimKept.bounded (.of_lp hlp) (by rw [hldr]) h
  case reset => exact ⟨le_rfl, le_rfl, le_rfl, le_rfl⟩
  case release | giveLink => exact h
  case configure bytes _ _ =>
    have hnew : TrimBounded (Machine.giveLink (Machine.configure (parseImage s.position bytes) s)) := by
      simp [TrimBounded, Machine.giveLink, Machine.configure]
    exact (enterHoldIfActive_trimKept _).bounded (by simp) hnew
  case force f _ => exact (takeForce_trimKept f s).bounded (by rw [takeForce_ldr]) h
  case hotMetal level =>
    obtain ⟨_, _, e | e⟩ := readHotMetal_cases level s
    · rw [e]
      exact h
    · exact TrimKept.bounded (.of_lp (by simp [e])) (by simp [e]) h
  case expiry => exact ((reports_trimKept s).trans (predict_trimKept _)).bounded (by simp) h
  case looper => exact trimBounded_looperPeriod h
  case lineActive => exact (enterHoldIfActive_trimKept _).bounded (by simp) (by exact h)
  case qualified => exact (leaveHoldIfReady_trimKept _).bounded (by simp) (by exact h)
  case headOn => exact (headOnAction_trimKept _ _ _ _).bounded (by simp) (hclean _)
  case restart => exact (restartStation_trimKept _ _).bounded (by rw [restartStation_ldr]) (hclean _)
  all_goals exact TrimKept.bounded (.of_lp (by simp)) (by simp) h

end Bounds

/-- Settles O6, outcome by outcome for each of the two laws. -/
theorem looperStaysLawful : Obligations.LooperStaysLawful :=
  ⟨fun _ _ => step_keeps (P := LooperLawful) (fun _ _ _ h => h) fun _ _ hd h => hd.looperLawful h,
    fun _ _ => step_keeps (P := TrimBounded) (fun _ _ _ h => h) fun _ _ hd h => hd.trimBounded h⟩

end Sys2Proof.Machine
end

section
/-! PROOFS. R76, R79: the cumulative factor and the speed reference stay within their limits. Only a speed period works them; the
other outcomes keep them, set the factor to 0, or start the station afresh. O7 is assembled from these. -/

namespace Sys2Proof.Machine

variable {s t u : State}

/-- What the outcomes outside the Cascade Unit do to it: the reference stays, the factor stays or is 0, and a stand neither
enters nor leaves UNCONFIGURED. -/
structure CascadeKept (s t : State) : Prop where
  ldr : t.ldr = s.ldr
  unconfigured : t.seq.stand = .unconfigured ↔ s.seq.stand = .unconfigured
  reference : t.cas.reference = s.cas.reference
  factor : t.cas.factor = s.cas.factor ∨ t.cas.factor = 0

theorem CascadeKept.of_cas (hldr : t.ldr = s.ldr) (hstand : t.seq.stand = .unconfigured ↔ s.seq.stand = .unconfigured)
    (hcas : t.cas = s.cas) : CascadeKept s t := ⟨hldr, hstand, by rw [hcas], .inl (by rw [hcas])⟩

theorem CascadeKept.of_seq (hldr : t.ldr = s.ldr) (hseq : t.seq = s.seq) (hcas : t.cas = s.cas) : CascadeKept s t :=
  .of_cas hldr (by rw [hseq]) hcas

theorem CascadeKept.refl (s : State) : CascadeKept s s := .of_seq rfl rfl rfl

theorem CascadeKept.setSens (s : State) (x : Sensing) : CascadeKept s (s.setSens x) := .of_seq rfl rfl rfl

theorem CascadeKept.trans (hst : CascadeKept s t) (htu : CascadeKept t u) : CascadeKept s u where
  ldr := htu.ldr.trans hst.ldr
  unconfigured := htu.unconfigured.trans hst.unconfigured
  reference := htu.reference.trans hst.reference
  factor := htu.factor.elim (fun e => e ▸ hst.factor) .inr

/-- The two laws of the Cascade Unit. -/
abbrev CascadeLawful (s : State) : Prop := FactorBounded s ∧ ReferenceLawful s

theorem CascadeKept.lawful (hk : CascadeKept s t) (h : CascadeLawful s) : CascadeLawful t := by
  obtain ⟨hfactor, href⟩ := h
  refine ⟨?_, ?_⟩
  · rcases hk.factor with e | e <;> rw [FactorBounded, e]
    · exact hfactor
    · decide
  · simpa only [ReferenceLawful, ne_eq, hk.ldr, hk.unconfigured, hk.reference] using href

section Kept

theorem openBite_cascadeKept (event : Instant) (p : Bool) (hs : s.seq.stand ≠ .unconfigured) :
    CascadeKept s (openBite event p s) := by
  refine .of_cas (by simp) ?_ (by simp)
  rw [(openBite_spec event p s).1]
  cases s.atLast <;> simp [hs]

theorem loadOn_cascadeKept (event : Instant) (p : Bool) (s : State) : CascadeKept s (loadOn event p s) := by
  unfold loadOn
  split
  case h_1 hs | h_2 hs => exact openBite_cascadeKept event p (by simp [hs])
  all_goals exact .refl _

theorem closeBite_cascadeKept (event : Instant) (b : Bite) (hs : s.seq.stand ≠ .unconfigured) :
    CascadeKept s (closeBite event b s) := by
  refine .of_cas (by simp) ?_ (by simp)
  rw [(closeBite_spec event b s).1]
  dsimp only
  split_ifs <;> simp [hs]

theorem loadOff_cascadeKept (event : Instant) (s : State) : CascadeKept s (loadOff event s) := by
  unfold loadOff
  split
  case h_1 hs _ | h_2 hs _ | h_3 hs _ => exact closeBite_cascadeKept event _ (by simp [hs])
  case h_4 => exact .refl _

theorem leaveHoldIfReady_cascadeKept (s : State) : CascadeKept s (leaveHoldIfReady s) := by
  rcases leaveHoldIfReady_cases s with ⟨e, -⟩ | ⟨e, hs, -⟩ <;> rw [e]
  · exact .refl s
  · exact ⟨by simp, by simp [hs], by simp, .inr (by simp)⟩

theorem enterHoldIfActive_cascadeKept (s : State) : CascadeKept s (enterHoldIfActive s) := by
  rcases enterHoldIfActive_cases s with ⟨e, -⟩ | ⟨e, -, htracks⟩ <;> rw [e]
  · exact .refl s
  · have hs : s.seq.stand ≠ .unconfigured := fun hu => by rw [hu] at htracks; cases htracks
    exact .of_cas (by simp) (by simp [hs]) (by simp)

theorem ForceDoes.cascadeKept (hd : ForceDoes s t) : CascadeKept s t := by
  cases hd
  case loadOn event _ =>
    exact (CascadeKept.setSens s _).trans (loadOn_cascadeKept event _ _)
  case loadOff event _ =>
    exact (CascadeKept.setSens s _).trans ((loadOff_cascadeKept event _).trans (leaveHoldIfReady_cascadeKept _))
  all_goals exact .of_seq (by simp) (by simp) (by simp)

theorem resumed_cascadeKept (s : State) : CascadeKept s (resumed s) := by
  unfold resumed
  split_ifs
  · exact .trans (.of_seq (by simp) (by simp) (by simp)) (leaveHoldIfReady_cascadeKept _)
  · exact .of_seq rfl rfl rfl

theorem takeForce_cascadeKept (f : Nat) (s : State) : CascadeKept s (takeForce f s) := by
  rcases takeForce_cases f s with e | ⟨-, hd⟩
  · rw [e]
    exact resumed_cascadeKept s
  · exact (resumed_cascadeKept s).trans hd.cascadeKept

theorem reports_cascadeKept (s : State) :
    CascadeKept s (leadTail (openWindows (dropMissed (dropOverdue (advanceAll s))))) := by
  refine .of_cas (by simp) ?_ (by simp)
  rw [(leadTail_spec s).2.1]
  unfold standAfter
  repeat' split
  all_goals simp_all

theorem predict_cascadeKept (s : State) : CascadeKept s (predict s) := by
  unfold predict
  repeat' split
  all_goals first | exact loadOn_cascadeKept _ _ _ | exact loadOff_cascadeKept _ _ | exact .refl s

theorem headOnAction_cascadeKept (sender : BitVec 5) (tag : Tag) (age : BitVec 16) (s : State) :
    CascadeKept s (headOnAction sender tag age s) := by
  refine .of_cas (by simp) ?_ (by simp)
  unfold headOnAction upstreamHead downstreamHead
  repeat' split
  all_goals simp_all [adopt, couple]

end Kept

section SpeedPeriod

theorem factorBounded_of_zero (h : s.cas.factor = 0) : FactorBounded s := by simp [FactorBounded, h]

theorem factorStep_bounded (h : FactorBounded s) : FactorBounded (factorStep s) := by
  unfold factorStep
  split
  case h_1 | h_2 | h_3 =>
    have hmem : -200000 ≤ s.clampedFactor ∧ s.clampedFactor ≤ 200000 :=
      clampInt_mem (lo := -200000) (hi := 200000) (by decide) s.rawFactor
    simpa [workFactor, FactorBounded] using hmem
  case h_7 => exact h
  all_goals exact factorBounded_of_zero rfl

@[simp] theorem factorStep_reference (s : State) : (factorStep s).cas.reference = s.cas.reference := by
  unfold factorStep
  split <;> simp [workFactor]

@[simp] theorem referenceStep_factor (s : State) : (referenceStep s).cas.factor = s.cas.factor := by
  unfold referenceStep
  repeat' split
  all_goals simp [workReference, holdReference]

theorem impactStep_stand (s : State) : (impactStep s).seq.stand = s.seq.stand := by
  unfold impactStep
  split <;> simp

theorem clampNat_mem {lo hi : Nat} (h : lo ≤ hi) (x : Nat) : lo ≤ clampNat lo hi x ∧ clampNat lo hi x ≤ hi := by
  unfold clampNat
  split_ifs <;> omega

theorem workReference_mem (base : Nat) (h : s.ldr.image.vMin ≤ s.ldr.image.vMax) :
    s.ldr.image.vMin ≤ (workReference base s).cas.reference ∧
    (workReference base s).cas.reference ≤ s.ldr.image.vMax := by
  have := clampInt_mem (Int.ofNat_le.mpr h) (rawReference base (s.cas.factor + s.boostPpm))
  simp only [workReference, setStickyIf_frame, setCas_cas]
  omega

theorem holdReference_mem (h : s.ldr.image.vMin ≤ s.ldr.image.vMax) :
    s.ldr.image.vMin ≤ (holdReference s).cas.reference ∧ (holdReference s).cas.reference ≤ s.ldr.image.vMax :=
  clampNat_mem h _

/-- R79, R81: outside UNCONFIGURED the reference is worked or held within its range. -/
theorem referenceStep_mem (hs : s.seq.stand ≠ .unconfigured) (h : s.ldr.image.vMin ≤ s.ldr.image.vMax) :
    s.ldr.image.vMin ≤ (referenceStep s).cas.reference ∧ (referenceStep s).cas.reference ≤ s.ldr.image.vMax := by
  unfold referenceStep
  repeat' split
  all_goals first | exact workReference_mem _ h | exact holdReference_mem h | exact absurd ‹_› hs

theorem referenceStep_unconfigured (hs : s.seq.stand = .unconfigured) : (referenceStep s).cas.reference = 0 := by
  simp [referenceStep, hs]

theorem cascadeLawful_speedPeriod (h : CascadeLawful s) :
    CascadeLawful (referenceStep (impactStep (factorStep (ageViews s)))) := by
  obtain ⟨hfactor, hconf, -, href⟩ := h
  have hbounded : FactorBounded (factorStep (ageViews s)) := factorStep_bounded hfactor
  have hstand : (impactStep (factorStep (ageViews s))).seq.stand = s.seq.stand := by simp [impactStep_stand]
  have hldr : (impactStep (factorStep (ageViews s))).ldr = s.ldr := by simp
  refine ⟨by simpa [FactorBounded] using hbounded, ?_, fun hu => ?_, fun hu => ?_⟩
  · simpa [hstand] using hconf
  · exact referenceStep_unconfigured (by simpa using hu)
  · simp only [referenceStep_frame, hstand] at hu
    obtain ⟨hlt, -⟩ := href hu
    have hmem := referenceStep_mem (s := impactStep (factorStep (ageViews s))) (hstand ▸ hu) (by rw [hldr]; exact hlt.le)
    rw [hldr] at hmem
    simp only [referenceStep_frame, hldr]
    exact ⟨hlt, .inr hmem⟩

end SpeedPeriod

section Outcomes

/-- R178: a good image has v_min below v_max. -/
theorem vMin_lt_vMax_of_imageGood {position : Nat} {bytes : List Byte} (h : imageGood position bytes = true) :
    (parseImage position bytes).vMin < (parseImage position bytes).vMax := by
  have hrange : imageInRange position (parseImage position bytes) = true := (Bool.and_eq_true_iff.mp h).2
  by_contra hlt
  simp [imageInRange, hlt] at hrange

theorem cascadeLawful_restartStation (target : Byte) (h : CascadeLawful s) (hrun : s.ldr.phase = .running) :
    CascadeLawful (restartStation target s) := by
  rcases restartStation_cases target s with e | ⟨e, -⟩ | ⟨e, hu⟩ <;> rw [e]
  · exact h
  · exact (CascadeKept.of_seq (by simp) (by simp) (by simp)).lawful h
  · obtain ⟨-, -, -, href⟩ := h
    obtain ⟨hlt, -⟩ := href hu
    refine (enterHoldIfActive_cascadeKept _).lawful ⟨by simp [FactorBounded], by simp [hrun], by simp, fun _ => ?_⟩
    simp only [restartLink_frame, restartStand_frame, restartStand_cas]
    exact ⟨hlt, .inr ⟨le_rfl, hlt.le⟩⟩

theorem Does.cascadeLawful (hd : Does s t) (h : CascadeLawful s) : CascadeLawful t := by
  have hclean (marker : Bool) : CascadeLawful (receiveClean marker s) :=
    (CascadeKept.of_seq (by simp) (by simp) (by simp)).lawful h
  have hunlinked (hp : s.ldr.phase ≠ .running) : s.seq.stand = .unconfigured ∧ s.cas.reference = 0 := by
    obtain ⟨-, hconf, hzero, -⟩ := h
    exact ⟨hconf hp, hzero (hconf hp)⟩
  cases hd
  case idle => exact h
  case link hd =>
    obtain ⟨hldr, hseq, -, -, hcas, -⟩ := hd.sameStand
    exact (CascadeKept.of_seq hldr hseq hcas).lawful h
  case reset => exact ⟨factorBounded_of_zero rfl, fun _ => rfl, fun _ => rfl, nofun⟩
  case release hp =>
    obtain ⟨hu, href⟩ := hunlinked (by simp [hp])
    exact ⟨h.1, fun _ => hu, fun _ => href, fun hc => absurd hu hc⟩
  case giveLink hp =>
    obtain ⟨hu, href⟩ := hunlinked (by simp [hp])
    exact ⟨h.1, fun _ => hu, fun _ => href, fun hc => absurd hu hc⟩
  case configure bytes hp good =>
    obtain ⟨-, href⟩ := hunlinked (by simp [hp])
    refine (enterHoldIfActive_cascadeKept _).lawful ⟨h.1, fun hp => absurd rfl hp, nofun, fun _ => ?_⟩
    exact ⟨vMin_lt_vMax_of_imageGood good, .inl href⟩
  case force f _ => exact (takeForce_cascadeKept f s).lawful h
  case hotMetal level =>
    obtain ⟨_, _, e | e⟩ := readHotMetal_cases level s <;>
      exact (CascadeKept.of_seq (by simp [e]) (by simp [e]) (by simp [e])).lawful h
  case expiry => exact ((reports_cascadeKept s).trans (predict_cascadeKept _)).lawful h
  case speed => exact cascadeLawful_speedPeriod h
  case impactEnd => exact (CascadeKept.of_cas rfl Iff.rfl rfl).lawful h
  case viewStale => exact (CascadeKept.mk rfl Iff.rfl rfl (.inl rfl)).lawful h
  case cascade => exact (CascadeKept.mk (by simp) (by simp) (by simp) (.inl (by simp))).lawful h
  case lineActive => exact (enterHoldIfActive_cascadeKept _).lawful h
  case qualified => exact (leaveHoldIfReady_cascadeKept _).lawful h
  case headOn => exact (headOnAction_cascadeKept _ _ _ _).lawful (hclean _)
  case view marker _ _ _ _ =>
    refine CascadeKept.lawful ?_ (hclean marker)
    unfold cascadeAction
    split <;> exact ⟨rfl, Iff.rfl, rfl, .inl rfl⟩
  case clear marker _ => exact (CascadeKept.of_seq rfl rfl rfl).lawful (hclean marker)
  case restart marker target hs =>
    have hrun : (receiveClean marker s).ldr.phase = .running := running_of_hearsSound (s := s) hs
    exact cascadeLawful_restartStation target (hclean marker) hrun
  all_goals exact (CascadeKept.of_seq (by simp) (by simp) (by simp)).lawful h

end Outcomes

/-- Settles O7, outcome by outcome. -/
theorem cascadeStaysBounded : Obligations.CascadeStaysBounded := fun _ _ =>
  step_keeps (P := CascadeLawful) (fun _ _ _ h => h) fun _ _ hd h => hd.cascadeLawful h

end Sys2Proof.Machine
end

section
/-! PROOFS. R25, R27, R30, R126, R131, R177: the filtered hold line, the release qualification and HOLD agree. A stand that is
neither in HOLD nor UNCONFIGURED finds the line released, so that what it does between its own states is free; in HOLD the
detector's changes end the hold where they must. O8 is assembled from these. -/

namespace Sys2Proof.Machine

variable {s t : State}

/-- The hold laws but for the one that ends a hold at once (R27). -/
structure HoldKept (s : State) : Prop where
  held : s.ldr.phase = .held → s.hold.filtered = false ∧ s.hold.qualified = false
  stand : s.hold.filtered = true → s.seq.stand = .hold ∨ s.seq.stand = .unconfigured
  active : s.hold.filtered = true → s.hold.qualified = false ∧ s.hold.timer = none
  timer : s.hold.qualified = true → s.hold.timer = none
  cleared : s.seq.stand = .hold → s.trk.markers = [] ∧ s.seq.bite = none ∧ s.sens.drill = none

theorem holdLawful_iff : HoldLawful s ↔
    HoldKept s ∧ (s.seq.stand = .hold → ¬(s.hold.qualified = true ∧ s.sens.loaded = false)) :=
  ⟨fun ⟨h1, h2, h3, h4, h5, h6⟩ => ⟨⟨h1, h2, h3, h4, h6⟩, h5⟩,
    fun ⟨⟨h1, h2, h3, h4, h6⟩, h5⟩ => ⟨h1, h2, h3, h4, h5, h6⟩⟩

/-- The three fields of the Hold Monitor that its laws read. -/
structure SameMonitor (s t : State) : Prop where
  filtered : t.hold.filtered = s.hold.filtered
  timer : t.hold.timer = s.hold.timer
  qualified : t.hold.qualified = s.hold.qualified

theorem SameMonitor.of_hold (h : t.hold = s.hold) : SameMonitor s t := ⟨by rw [h], by rw [h], by rw [h]⟩

theorem HoldKept.of_parts (h : HoldKept s) (hphase : t.ldr.phase = s.ldr.phase) (hm : SameMonitor s t)
    (hstand : t.seq.stand = s.seq.stand)
    (hcleared : s.seq.stand = .hold → t.trk.markers = [] ∧ t.seq.bite = none ∧ t.sens.drill = none) : HoldKept t where
  held := by simpa only [hphase, hm.filtered, hm.qualified] using h.held
  stand := by simpa only [hstand, hm.filtered] using h.stand
  active := by simpa only [hm.filtered, hm.timer, hm.qualified] using h.active
  timer := by simpa only [hm.timer, hm.qualified] using h.timer
  cleared := by simpa only [hstand] using hcleared

theorem holdLawful_of_parts (h : HoldLawful s) (hphase : t.ldr.phase = s.ldr.phase) (hm : SameMonitor s t)
    (hstand : t.seq.stand = s.seq.stand) (hloaded : t.sens.loaded = s.sens.loaded)
    (hcleared : s.seq.stand = .hold → t.trk.markers = [] ∧ t.seq.bite = none ∧ t.sens.drill = none) : HoldLawful t := by
  obtain ⟨hkept, hready⟩ := holdLawful_iff.mp h
  refine holdLawful_iff.mpr ⟨hkept.of_parts hphase hm hstand hcleared, ?_⟩
  rwa [hstand, hm.qualified, hloaded]

/-- Nothing that the hold laws read has changed. -/
theorem holdLawful_of_same (h : HoldLawful s) (hldr : t.ldr = s.ldr) (hhold : t.hold = s.hold) (hseq : t.seq = s.seq)
    (htrk : t.trk = s.trk) (hsens : t.sens = s.sens) : HoldLawful t := by
  refine holdLawful_of_parts h (by rw [hldr]) (.of_hold hhold) (by rw [hseq]) (by rw [hsens]) fun hs => ?_
  rw [htrk, hseq, hsens]
  exact (holdLawful_iff.mp h).1.cleared hs

/-- R25: a configured stand outside HOLD finds the filtered line released. -/
theorem HoldKept.released (h : HoldKept s) (hs : s.seq.stand ≠ .hold) (hu : s.seq.stand ≠ .unconfigured) :
    s.hold.filtered = false :=
  Bool.eq_false_iff.mpr fun hf => (h.stand hf).elim hs hu

/-- A configured stand that moves between states other than HOLD. -/
theorem HoldLawful.away (h : HoldLawful s) (hs : s.seq.stand ≠ .hold) (hu : s.seq.stand ≠ .unconfigured)
    (hphase : t.ldr.phase = s.ldr.phase) (hm : SameMonitor s t) (ht : t.seq.stand ≠ .hold) : HoldLawful t := by
  obtain ⟨hkept, -⟩ := holdLawful_iff.mp h
  have hf : t.hold.filtered = false := by rw [hm.filtered, hkept.released hs hu]
  refine holdLawful_iff.mpr ⟨⟨?_, by simp [hf], by simp [hf], ?_, fun hh => absurd hh ht⟩, fun hh => absurd hh ht⟩
  · simpa only [hphase, hm.filtered, hm.qualified] using hkept.held
  · simpa only [hm.timer, hm.qualified] using hkept.timer

section HoldEnds

/-- R27: where the hold is to end, it ends. -/
theorem HoldKept.leaveHoldIfReady (h : HoldKept s) : HoldLawful (leaveHoldIfReady s) := by
  rcases leaveHoldIfReady_cases s with ⟨e, hn⟩ | ⟨e, hs, hq, -⟩ <;> rw [e]
  · exact holdLawful_iff.mpr ⟨h, fun hs hr => hn ⟨hs, hr⟩⟩
  · have hf : s.hold.filtered = false := Bool.eq_false_iff.mpr fun hf => by
      obtain ⟨hq', -⟩ := h.active hf
      rw [hq'] at hq
      cases hq
    refine holdLawful_iff.mpr ⟨⟨?_, ?_, ?_, ?_, ?_⟩, ?_⟩
    · simpa using h.held
    · simp [hf]
    · simp [hf]
    · simpa using h.timer
    · simp
    · simp

/-- R25, R132: with the release not qualified, hold entry is lawful wherever it is signalled. -/
theorem holdLawful_enterHoldIfActive (hphase : s.ldr.phase ≠ .held) (hactive : s.hold.filtered = true →
      s.hold.qualified = false ∧ s.hold.timer = none) (htimer : s.hold.qualified = true → s.hold.timer = none)
    (hstay : s.seq.stand.tracks = false → HoldLawful s) (hs : s.seq.stand ≠ .hold ∨ s.seq.stand.tracks = false) :
    HoldLawful (enterHoldIfActive s) := by
  cases htracks : s.seq.stand.tracks with
  | false =>
    rcases enterHoldIfActive_cases s with ⟨e, -⟩ | ⟨-, -, ht⟩
    · rw [e]
      exact hstay htracks
    · rw [ht] at htracks
      cases htracks
  | true =>
    have hh : s.seq.stand ≠ .hold := hs.resolve_right (by simp [htracks])
    rcases enterHoldIfActive_cases s with ⟨e, hf⟩ | ⟨e, hf, -⟩ <;> rw [e]
    · have hf : s.hold.filtered = false := hf.resolve_right (by simp [htracks])
      exact holdLawful_iff.mpr
        ⟨⟨fun hp => absurd hp hphase, by simp [hf], by simp [hf], htimer, fun h => absurd h hh⟩, fun h => absurd h hh⟩
    · obtain ⟨hq, ht⟩ := hactive hf
      refine holdLawful_iff.mpr ⟨⟨fun hp => absurd hp (by simpa using hphase), ?_, ?_, ?_, ?_⟩, ?_⟩ <;> simp [hq, ht]

end HoldEnds

section LoadEvents

theorem openBite_stand (event : Instant) (p : Bool) (s : State) : (openBite event p s).seq.stand ≠ .hold := by
  rw [(openBite_spec event p s).1]
  cases s.atLast <;> simp

theorem holdLawful_loadOn (event : Instant) (p : Bool) (h : HoldLawful s) : HoldLawful (loadOn event p s) := by
  unfold loadOn
  split
  case h_1 hs | h_2 hs =>
    exact h.away (by simp [hs]) (by simp [hs]) (by simp) (.of_hold (by simp)) (openBite_stand event p s)
  all_goals exact h

theorem closeBite_stand (event : Instant) (b : Bite) (s : State) : (closeBite event b s).seq.stand ≠ .hold := by
  rw [(closeBite_spec event b s).1]
  dsimp only
  split_ifs <;> simp

theorem loadOn_of_hold (event : Instant) (p : Bool) (hs : s.seq.stand = .hold) : loadOn event p s = s := by
  simp [loadOn, hs]

theorem loadOff_of_hold (event : Instant) (hs : s.seq.stand = .hold) : loadOff event s = s := by
  simp [loadOff, hs]

/-- The detector's changes in HOLD: no drill runs there, and a load event is none. -/
theorem ForceDoes.holdLawful_hold (hd : ForceDoes s t) (h : HoldLawful s) (hs : s.seq.stand = .hold) : HoldLawful t := by
  obtain ⟨hkept, hready⟩ := holdLawful_iff.mp h
  obtain ⟨hmarkers, hbite, hdrill⟩ := hkept.cleared hs
  cases hd
  case blocked => exact h
  case unblock hd | discard hd => simp [hdrill] at hd
  case near | far =>
    exact holdLawful_of_parts h rfl (.of_hold rfl) rfl rfl fun _ => ⟨hmarkers, hbite, hdrill⟩
  case loadOn event _ =>
    rw [loadOn_of_hold event false (by exact hs)]
    exact holdLawful_iff.mpr ⟨hkept.of_parts rfl (.of_hold rfl) rfl fun _ => ⟨hmarkers, hbite, hdrill⟩, by simp⟩
  case loadOff event _ =>
    rw [loadOff_of_hold event (by exact hs)]
    exact (hkept.of_parts (t := s.setSens { s.sens with loaded := false, run := none }) rfl (.of_hold rfl) rfl
      fun _ => ⟨hmarkers, hbite, hdrill⟩).leaveHoldIfReady

theorem leaveHoldIfReady_stand (hs : s.seq.stand ≠ .hold) : leaveHoldIfReady s = s := by
  rcases leaveHoldIfReady_cases s with ⟨e, -⟩ | ⟨-, hh, -⟩
  · exact e
  · exact absurd hh hs

theorem loadOff_stand (event : Instant) (hs : s.seq.stand ≠ .hold) : (loadOff event s).seq.stand ≠ .hold := by
  unfold loadOff
  split
  case h_1 | h_2 | h_3 => exact closeBite_stand _ _ _
  case h_4 => exact hs

theorem loadOn_stand (event : Instant) (p : Bool) (hs : s.seq.stand ≠ .hold) : (loadOn event p s).seq.stand ≠ .hold := by
  unfold loadOn
  split
  case h_1 | h_2 => exact openBite_stand _ _ _
  all_goals exact hs

theorem ForceDoes.holdLawful_away (hd : ForceDoes s t) (h : HoldLawful s) (hs : s.seq.stand ≠ .hold)
    (hu : s.seq.stand ≠ .unconfigured) : HoldLawful t := by
  cases hd
  case loadOn event _ =>
    exact h.away hs hu (by simp) (.of_hold (by simp)) (loadOn_stand event _ (by simpa using hs))
  case loadOff event _ =>
    have hoff := loadOff_stand event (s := s.setSens { s.sens with loaded := false, run := none }) hs
    rw [leaveHoldIfReady_stand hoff]
    exact h.away hs hu (by simp) (.of_hold (by simp)) hoff
  all_goals exact h.away hs hu (by simp) (.of_hold (by simp)) (by simpa using hs)

theorem holdLawful_resumed (h : HoldLawful s) : HoldLawful (resumed s) := by
  obtain ⟨hkept, -⟩ := holdLawful_iff.mp h
  unfold resumed
  split_ifs
  · refine (hkept.of_parts (by simp) (.of_hold (by simp)) (by simp) fun hs => ?_).leaveHoldIfReady
    obtain ⟨hmarkers, hbite, hdrill⟩ := hkept.cleared hs
    simp [alignDetector, forceArrives, hmarkers, hbite, hdrill]
  · exact holdLawful_of_parts h rfl (.of_hold rfl) rfl rfl hkept.cleared

theorem holdLawful_takeForce (f : Nat) (h : HoldLawful s) : HoldLawful (takeForce f s) := by
  have hr := holdLawful_resumed h
  rcases takeForce_cases f s with e | ⟨hu, hd⟩
  · rwa [e]
  · by_cases hs : (resumed s).seq.stand = .hold
    · exact hd.holdLawful_hold hr hs
    · exact hd.holdLawful_away hr hs hu

end LoadEvents

section Expiry

/-- R129: at an expiry the misses start the own drive, and nothing else of the Hold Monitor's laws. -/
theorem reports_sameMonitor (s : State) :
    SameMonitor s (leadTail (openWindows (dropMissed (dropOverdue (advanceAll s))))) := by
  obtain ⟨-, -, -, -, -, -, -, hhold⟩ := reports_spec s
  split_ifs at hhold
  · exact ⟨by rw [hhold]; rfl, by rw [hhold]; rfl, by rw [hhold]; rfl⟩
  · exact .of_hold hhold

theorem holdLawful_reports (h : HoldLawful s) (hu : s.seq.stand ≠ .unconfigured) :
    HoldLawful (leadTail (openWindows (dropMissed (dropOverdue (advanceAll s))))) := by
  obtain ⟨htrk, hseq, -⟩ := leadTail_spec s
  by_cases hs : s.seq.stand = .hold
  · obtain ⟨hmarkers, hbite, hdrill⟩ := (holdLawful_iff.mp h).1.cleared hs
    refine holdLawful_of_parts h (by simp) (reports_sameMonitor s) ?_ (by simp) fun _ => ?_
    · rw [hseq, hs]
      exact (standAfter_hold_iff s).mpr hs
    · rw [htrk, hseq]
      simp [leftMarkers, movedMarkers, advanceMarkers, hmarkers, hbite, hdrill]
  · refine h.away hs hu (by simp) (reports_sameMonitor s) ?_
    rw [hseq]
    exact fun hh => hs ((standAfter_hold_iff s).mp hh)

theorem holdLawful_loadOff (event : Instant) (h : HoldLawful s) : HoldLawful (loadOff event s) := by
  unfold loadOff
  split
  case h_1 hs _ | h_2 hs _ | h_3 hs _ =>
    exact h.away (by simp [hs]) (by simp [hs]) (by simp) (.of_hold (by simp)) (closeBite_stand event _ s)
  case h_4 => exact h

theorem holdLawful_predict (h : HoldLawful s) : HoldLawful (predict s) := by
  unfold predict
  repeat' split
  all_goals first | exact h | exact holdLawful_loadOn _ _ h | exact holdLawful_loadOff _ h

end Expiry

section Frames

/-- R31: in HOLD no marker is made. -/
theorem trackNotice_of_hold (kind : MarkerKind) (tag : Tag) (age : BitVec 16) (hs : s.seq.stand = .hold) :
    trackNotice kind tag age s = s := by
  simp [trackNotice, hs, StandState.tracks]

theorem holdLawful_trackNotice (kind : MarkerKind) (tag : Tag) (age : BitVec 16) (h : HoldLawful s) :
    HoldLawful (trackNotice kind tag age s) := by
  by_cases hs : s.seq.stand = .hold
  · rwa [trackNotice_of_hold kind tag age hs]
  · exact holdLawful_of_parts h (by simp) (.of_hold (by simp)) (by simp) (by simp) fun hh => absurd hh hs

theorem holdLawful_hotMetalEdge (rising : Bool) (h : HoldLawful s) : HoldLawful (hotMetalEdge rising s) := by
  by_cases hs : s.seq.stand = .hold
  · simpa [hotMetalEdge, hs, StandState.tracks] using h
  · exact holdLawful_of_parts h (by simp) (.of_hold (by simp)) (by simp) (by simp) fun hh => absurd hh hs

theorem holdLawful_upstreamHead (tag : Tag) (age : BitVec 16) (h : HoldLawful s) :
    HoldLawful (upstreamHead tag age s) := by
  unfold upstreamHead
  split
  case h_1 b hb =>
    split_ifs
    · refine holdLawful_of_parts h (by simp) (.of_hold (by simp)) (by simp [adopt]) (by simp) fun hs => ?_
      obtain ⟨-, hnone, -⟩ := (holdLawful_iff.mp h).1.cleared hs
      rw [hnone] at hb
      cases hb
    · exact holdLawful_trackNotice _ _ _ h
  case h_2 => exact holdLawful_trackNotice _ _ _ h

theorem holdLawful_downstreamHead (tag : Tag) (h : HoldLawful s) : HoldLawful (downstreamHead tag s) := by
  unfold downstreamHead
  split
  case h_1 hs _ => exact h.away (by simp [hs]) (by simp [hs]) (by simp) (.of_hold (by simp)) (by simp [couple])
  case h_2 => exact h

theorem holdLawful_headOnAction (sender : BitVec 5) (tag : Tag) (age : BitVec 16) (h : HoldLawful s) :
    HoldLawful (headOnAction sender tag age s) := by
  unfold headOnAction
  split
  · exact holdLawful_upstreamHead tag age h
  · exact holdLawful_downstreamHead tag h
  all_goals exact h

theorem holdLawful_tailOffAction (sender : BitVec 5) (tag : Tag) (age : BitVec 16) (h : HoldLawful s) :
    HoldLawful (tailOffAction sender tag age s) := by
  unfold tailOffAction
  split
  · exact holdLawful_trackNotice _ _ _ h
  all_goals exact h

theorem holdLawful_takeDrill (target kind : Byte) (h : HoldLawful s) : HoldLawful (takeDrill target kind s) := by
  unfold takeDrill
  split_ifs with _ _ _ _ hh
  case neg =>
    exact holdLawful_of_parts h rfl (.of_hold rfl) rfl rfl fun hs => absurd (.inl hs) hh
  all_goals exact h

theorem holdLawful_restartStation (target : Byte) (h : HoldLawful s) (hrun : s.ldr.phase = .running) :
    HoldLawful (restartStation target s) := by
  obtain ⟨hkept, -⟩ := holdLawful_iff.mp h
  rcases restartStation_cases target s with e | ⟨e, -⟩ | ⟨e, -⟩ <;> rw [e]
  · exact h
  · exact holdLawful_of_same h (by simp) (by simp) (by simp) (by simp) (by simp)
  · refine holdLawful_enterHoldIfActive (by simp [hrun]) ?_ ?_ (by simp [StandState.tracks]) (.inl (by simp))
    · simpa using hkept.active
    · simpa using hkept.timer

end Frames

theorem Does.holdLawful (hd : Does s t) (h : HoldLawful s) : HoldLawful t := by
  obtain ⟨hkept, hready⟩ := holdLawful_iff.mp h
  have hclean (marker : Bool) : HoldLawful (receiveClean marker s) :=
    holdLawful_of_same h (by simp) (by simp) (by simp) (by simp) (by simp)
  cases hd
  case idle => exact h
  case link hd =>
    obtain ⟨hldr, hseq, htrk, -, -, -, hsens, hhold⟩ := hd.sameStand
    exact holdLawful_of_same h hldr hhold hseq htrk hsens
  case reset => exact holdLawful_iff.mpr ⟨⟨fun _ => ⟨rfl, rfl⟩, nofun, nofun, nofun, nofun⟩, nofun⟩
  case release hp =>
    obtain ⟨hf, hq⟩ := hkept.held hp
    refine holdLawful_iff.mpr ⟨⟨nofun, hkept.stand, fun hf' => ?_, fun hq' => ?_, hkept.cleared⟩, hready⟩
    · cases hf.symm.trans hf'
    · cases hq.symm.trans hq'
  case giveLink => exact holdLawful_iff.mpr ⟨⟨nofun, hkept.stand, hkept.active, hkept.timer, hkept.cleared⟩, hready⟩
  case configure =>
    exact holdLawful_enterHoldIfActive nofun hkept.active hkept.timer nofun (.inl nofun)
  case force f _ => exact holdLawful_takeForce f h
  case hotMetal level =>
    have hsens (l : Option Bool) (r : Option HotRun) :
        HoldLawful (s.setSens { s.sens with hotLevel := l, hotRun := r }) := h
    obtain ⟨_, _, e | e⟩ := readHotMetal_cases level s <;> rw [e]
    · exact hsens _ _
    · exact holdLawful_hotMetalEdge level (hsens _ _)
  case expiry hu => exact holdLawful_predict (holdLawful_reports h hu)
  case speed =>
    refine holdLawful_of_parts h (by simp) (.of_hold (by simp)) (by simp [impactStep_stand]) (by simp) fun hs => ?_
    obtain ⟨hmarkers, hbite, hdrill⟩ := hkept.cleared hs
    simp [impactStep, hmarkers, hbite, hdrill]
  case impactEnd b hb =>
    refine holdLawful_of_parts h rfl (.of_hold rfl) rfl rfl fun hs => ?_
    obtain ⟨-, hbite, -⟩ := hkept.cleared hs
    rw [hbite] at hb
    cases hb
  case wire => exact holdLawful_of_parts h rfl ⟨rfl, rfl, rfl⟩ rfl rfl hkept.cleared
  case lineActive hl =>
    have hp : s.ldr.phase ≠ .held := by simpa [lineSettled, sampling] using (Bool.and_eq_true_iff.mp hl).1
    refine holdLawful_enterHoldIfActive hp (fun _ => ⟨rfl, rfl⟩) nofun (fun htracks => ?_) ?_
    · refine holdLawful_iff.mpr ⟨⟨fun h => absurd h hp, fun _ => ?_, fun _ => ⟨rfl, rfl⟩, nofun, hkept.cleared⟩, ?_⟩
      · revert htracks
        simp only [setHold_seq]
        cases s.seq.stand <;> simp [StandState.tracks]
      · simp
    · simp only [setHold_seq]
      cases s.seq.stand <;> simp [StandState.tracks]
  case lineReleased hf =>
    refine holdLawful_iff.mpr ⟨⟨fun _ => ⟨rfl, rfl⟩, nofun, nofun, nofun, hkept.cleared⟩, ?_⟩
    simp
  case qualified hq =>
    obtain ⟨hp, hf⟩ : s.ldr.phase ≠ .held ∧ s.hold.filtered = false := by
      unfold qualificationDone at hq
      split at hq
      · simp only [sampling, Bool.and_eq_true, Bool.not_eq_true', bne_iff_ne] at hq
        exact hq.1
      · cases hq
    exact HoldKept.leaveHoldIfReady
      ⟨fun h => absurd h hp, hkept.stand, fun h => absurd h (by simp [hf]), fun _ => rfl, hkept.cleared⟩
  case headOn => exact holdLawful_headOnAction _ _ _ (hclean _)
  case tailOff => exact holdLawful_tailOffAction _ _ _ (hclean _)
  case clear marker _ => exact holdLawful_of_same (hclean marker) rfl rfl rfl rfl rfl
  case endDrive marker _ =>
    exact holdLawful_of_parts h (by simp) ⟨by simp, by simp, by simp⟩ (by simp) (by simp) (by simpa using hkept.cleared)
  case drill => exact holdLawful_takeDrill _ _ (hclean _)
  case restart marker target hs =>
    have hrun : (receiveClean marker s).ldr.phase = .running := running_of_hearsSound (s := s) hs
    exact holdLawful_restartStation target (hclean marker) hrun
  case forceSilent | speedSilent | angleSilent | speedSample | angleSample =>
    exact holdLawful_of_parts h (by simp) (.of_hold (by simp)) (by simp) (by simp) (by simpa using hkept.cleared)
  all_goals exact holdLawful_of_same h (by simp) (by simp) (by simp) (by simp) (by simp)

/-- Settles O8, outcome by outcome. -/
theorem holdStaysLawful : Obligations.HoldStaysLawful := fun _ _ =>
  step_keeps (P := HoldLawful) (fun _ _ _ h => h) fun _ _ hd h => hd.holdLawful h

end Sys2Proof.Machine
end

section
/-! PROOFS. R111, R116, R125, R126: load detector, qualifying run, staleness and drill agree. The laws read the detector, and of
the stand only whether it is UNCONFIGURED, which no command but a reset makes it. O9 is assembled from these. -/

namespace Sys2Proof.Machine

variable {s t : State}

/-- The detector of t is that of s, with no blocking drill begun, and t is UNCONFIGURED without a bite only where s was. -/
structure DetectorKept (s t : State) : Prop where
  stale : t.sens.forceStale = s.sens.forceStale
  run : t.sens.run = s.sens.run
  loaded : t.sens.loaded = s.sens.loaded
  drill : t.sens.drill = some .blocking → s.sens.drill = some .blocking
  unconfigured : t.seq.stand = .unconfigured → s.seq.stand = .unconfigured ∧ (s.seq.bite = none → t.seq.bite = none)

theorem DetectorKept.lawful (hk : DetectorKept s t) (h : SensingLawful s) : SensingLawful t := by
  obtain ⟨hstale, hblocking, hunconf⟩ := h
  refine ⟨?_, fun hd => ?_, fun hu => ?_⟩
  · rwa [hk.stale, hk.run]
  · rw [hk.loaded, hk.run]
    exact hblocking (hk.drill hd)
  · obtain ⟨hu', hbite⟩ := hk.unconfigured hu
    obtain ⟨hb, hrest⟩ := hunconf hu'
    rw [hk.loaded, hk.run]
    exact ⟨hbite hb, hrest⟩

theorem DetectorKept.of_sens (hsens : t.sens = s.sens)
    (hu : t.seq.stand = .unconfigured → s.seq.stand = .unconfigured ∧ (s.seq.bite = none → t.seq.bite = none)) :
    DetectorKept s t := ⟨by rw [hsens], by rw [hsens], by rw [hsens], by rw [hsens]; exact id, hu⟩

theorem DetectorKept.of_seq (hsens : t.sens = s.sens) (hseq : t.seq = s.seq) : DetectorKept s t :=
  .of_sens hsens fun hu => ⟨hseq ▸ hu, fun hb => by rw [hseq, hb]⟩

theorem DetectorKept.of_configured (hsens : t.sens = s.sens) (hs : t.seq.stand ≠ .unconfigured) : DetectorKept s t :=
  .of_sens hsens fun hu => absurd hu hs

theorem DetectorKept.refl (s : State) : DetectorKept s s := .of_seq rfl rfl

theorem loadOn_detectorKept (event : Instant) (p : Bool) (s : State) : DetectorKept s (loadOn event p s) := by
  by_cases hs : s.seq.stand = .unconfigured
  · simpa [loadOn, hs] using DetectorKept.refl s
  · exact .of_configured (by simp) fun hu => hs ((loadOn_cascadeKept event p s).unconfigured.mp hu)

theorem loadOff_detectorKept (event : Instant) (s : State) : DetectorKept s (loadOff event s) := by
  by_cases hs : s.seq.stand = .unconfigured
  · simpa [loadOff, hs] using DetectorKept.refl s
  · exact .of_configured (by simp) fun hu => hs ((loadOff_cascadeKept event s).unconfigured.mp hu)

theorem leaveHoldIfReady_detectorKept (s : State) : DetectorKept s (leaveHoldIfReady s) := by
  rcases leaveHoldIfReady_cases s with ⟨e, -⟩ | ⟨e, -⟩ <;> rw [e]
  · exact .refl s
  · exact .of_configured (by simp) (by simp)

theorem enterHoldIfActive_detectorKept (s : State) : DetectorKept s (enterHoldIfActive s) := by
  rcases enterHoldIfActive_cases s with ⟨e, -⟩ | ⟨e, -⟩ <;> rw [e]
  · exact .refl s
  · exact ⟨by simp, by simp, by simp, by simp, by simp⟩

/-- An evaluated sample at a configured station whose input is fresh. -/
theorem ForceDoes.sensingLawful (hd : ForceDoes s t) (h : SensingLawful s) (hfresh : s.sens.forceStale = false)
    (hu : s.seq.stand ≠ .unconfigured) : SensingLawful t := by
  obtain ⟨-, hblocking, -⟩ := id h
  cases hd
  case blocked => exact h
  case unblock => exact ⟨fun hs => absurd hs (by simp [hfresh]), nofun, fun hu' => absurd hu' hu⟩
  case near => exact ⟨fun _ => rfl, fun hd => ⟨(hblocking hd).1, rfl⟩, fun hu' => absurd hu' hu⟩
  case far hd => exact ⟨fun hs => absurd hs (by simp [hfresh]), fun hd' => absurd hd' hd, fun hu' => absurd hu' hu⟩
  case discard =>
    refine ⟨fun _ => by simp, fun _ => by simp, fun hu' => absurd hu' (by simpa using hu)⟩
  case loadOn event hd =>
    refine (loadOn_detectorKept event false _).lawful ⟨fun _ => rfl, fun hd' => ?_, fun hu' => absurd hu' hu⟩
    rw [setSens_sens, hd] at hd'
    cases hd'
  case loadOff event hd =>
    refine (leaveHoldIfReady_detectorKept _).lawful ((loadOff_detectorKept event _).lawful ?_)
    exact ⟨fun _ => rfl, fun _ => ⟨rfl, rfl⟩, fun hu' => absurd hu' hu⟩

theorem resumed_fresh (s : State) : (resumed s).sens.forceStale = false := by
  unfold resumed
  split_ifs
  · simp [alignDetector, forceArrives]
  · rfl

/-- R118, R126: the alignment after a stale spell, which left no run. -/
theorem sensingLawful_resumed (h : SensingLawful s) : SensingLawful (resumed s) := by
  obtain ⟨hstale, hblocking, hunconf⟩ := h
  unfold resumed
  split_ifs with hs
  · have hrun : s.sens.run = none := hstale hs
    refine (leaveHoldIfReady_detectorKept _).lawful ⟨fun _ => hrun, fun hd => ⟨?_, hrun⟩, fun hu => ?_⟩
    · cases hb : s.seq.bite with
      | none => simp [alignDetector, forceArrives, hb]
      | some b =>
        simp only [alignDetector, forceArrives, setSens_sens, setSens_seq, hb, Option.isSome_some, Bool.true_and] at hd
        split_ifs at hd with hd'
        simp [hd] at hd'
    · obtain ⟨hb, -, -⟩ := hunconf hu
      exact ⟨hb, by simp [alignDetector, forceArrives, hb], hrun⟩
  · exact ⟨nofun, hblocking, hunconf⟩

theorem sensingLawful_takeForce (f : Nat) (h : SensingLawful s) : SensingLawful (takeForce f s) := by
  have hr := sensingLawful_resumed h
  rcases takeForce_cases f s with e | ⟨hu, hd⟩
  · rwa [e]
  · exact hd.sensingLawful hr (resumed_fresh s) hu

theorem predict_detectorKept (s : State) : DetectorKept s (predict s) := by
  unfold predict
  repeat' split
  all_goals first | exact loadOn_detectorKept _ _ _ | exact loadOff_detectorKept _ _ | exact .refl s

theorem headOnAction_detectorKept (sender : BitVec 5) (tag : Tag) (age : BitVec 16) (s : State) :
    DetectorKept s (headOnAction sender tag age s) := by
  refine .of_sens (by simp) fun hu => ?_
  have hu' : s.seq.stand = .unconfigured := (headOnAction_cascadeKept sender tag age s).unconfigured.mp hu
  refine ⟨hu', fun hb => ?_⟩
  unfold headOnAction upstreamHead downstreamHead
  repeat' split
  all_goals simp_all

theorem configure_detectorKept (image : Image) (s : State) : DetectorKept s (giveLink (configure image s)) := by
  have hsens : (giveLink (configure image s)).sens = s.sens := by simp [giveLink, configure]
  have hstand : (giveLink (configure image s)).seq.stand = .empty := by simp [giveLink, configure]
  exact .of_configured hsens (by rw [hstand]; nofun)

theorem takeDrill_detectorKept (target kind : Byte) (s : State) : DetectorKept s (takeDrill target kind s) := by
  unfold takeDrill
  split_ifs
  case neg => exact ⟨rfl, rfl, rfl, nofun, fun hu => ⟨hu, id⟩⟩
  all_goals exact .of_seq (by simp) (by simp)

theorem restartStation_detectorKept (target : Byte) (s : State) : DetectorKept s (restartStation target s) := by
  rcases restartStation_cases target s with e | ⟨e, -⟩ | ⟨e, -⟩ <;> rw [e]
  · exact .refl s
  · exact .of_seq (by simp) (by simp)
  · have hk := enterHoldIfActive_detectorKept (restartLink (restartStand s))
    refine ⟨by simpa using hk.stale, by simpa using hk.run, by simpa using hk.loaded, fun hd => ?_, fun hu => ?_⟩
    · simpa using hk.drill hd
    · simpa using (hk.unconfigured hu).1

theorem Does.sensingLawful (hd : Does s t) (h : SensingLawful s) : SensingLawful t := by
  have hclean (marker : Bool) : SensingLawful (receiveClean marker s) :=
    (DetectorKept.of_seq (by simp) (by simp)).lawful h
  obtain ⟨hstale, hblocking, hunconf⟩ := id h
  cases hd
  case link hd =>
    obtain ⟨-, hseq, -, -, -, -, hsens, -⟩ := hd.sameStand
    exact (DetectorKept.of_seq hsens hseq).lawful h
  case reset => exact ⟨fun _ => rfl, nofun, fun _ => ⟨rfl, rfl, rfl⟩⟩
  case release | giveLink => exact h
  case configure =>
    exact (enterHoldIfActive_detectorKept _).lawful ((configure_detectorKept _ s).lawful h)
  case force f _ => exact sensingLawful_takeForce f h
  case forceSilent =>
    refine (DetectorKept.of_seq (by simp) (by simp)).lawful (s := s.setSens { s.sens with forceStale := true, run := none }) ?_
    exact ⟨fun _ => rfl, fun hd => ⟨(hblocking hd).1, rfl⟩, fun hu => ⟨(hunconf hu).1, (hunconf hu).2.1, rfl⟩⟩
  case speedSample | angleSample => exact h
  case speedSilent | angleSilent => exact DetectorKept.lawful ⟨by simp, by simp, by simp, by simp, by simp⟩ h
  case hotMetal level =>
    obtain ⟨_, _, e | e⟩ := readHotMetal_cases level s <;> rw [e]
    · exact h
    · exact DetectorKept.lawful ⟨by simp, by simp, by simp, by simp, by simp⟩ h
  case expiry hu =>
    refine (predict_detectorKept _).lawful (DetectorKept.lawful (.of_configured (by simp) ?_) h)
    exact fun hu' => hu ((reports_cascadeKept s).unconfigured.mp hu')
  case speed =>
    refine DetectorKept.lawful (.of_sens (by simp) fun hu => ?_) h
    have hu' : s.seq.stand = .unconfigured := by simpa [impactStep_stand] using hu
    exact ⟨hu', fun hb => by simp [impactStep, hb]⟩
  case impactEnd b hb => 
    exact DetectorKept.lawful (s := s) (.of_sens rfl fun hu => ⟨hu, fun hb' => nomatch hb.symm.trans hb'⟩) h
  case lineActive => exact (enterHoldIfActive_detectorKept _).lawful h
  case qualified => exact (leaveHoldIfReady_detectorKept _).lawful h
  case headOn => exact (headOnAction_detectorKept _ _ _ _).lawful (hclean _)
  case drill => exact (takeDrill_detectorKept _ _ _).lawful (hclean _)
  case restart => exact (restartStation_detectorKept _ _).lawful (hclean _)
  case clear marker _ => exact hclean marker
  all_goals exact (DetectorKept.of_seq (by simp) (by simp)).lawful h

/-- Settles O9, outcome by outcome. -/
theorem sensingStaysLawful : Obligations.SensingStaysLawful := fun _ _ =>
  step_keeps (P := SensingLawful) (fun _ _ _ h => h) fun _ _ hd h => hd.sensingLawful h

end Sys2Proof.Machine
end

section
/-! PROOFS. The four slots: the place that an offer takes and the frame that a contest puts up (R160 to R162). O56 is assembled
from these. -/

namespace Sys2Proof.Machine

section Places

variable {q : Option Slot → Bool} {v : Slots}

theorem mem_places (i : Fin 4) : i ∈ places := by fin_cases i <;> simp [places]

theorem findPlace_eq_none : findPlace q v = none ↔ ∀ i : Fin 4, q v[i] = false := by
  simp [findPlace, mem_places]

theorem of_findPlace {i : Fin 4} (h : findPlace q v = some i) : q v[i] = true :=
  List.find?_some (p := fun i => q v[i]) h

theorem exists_of_findPlace (h : findPlace q v ≠ none) : ∃ i, findPlace q v = some i := Option.ne_none_iff_exists'.mp h

theorem holds_iff (p : Slot → Bool) (o : Option Slot) : holds p o = true ↔ ∃ x, o = some x ∧ p x = true := by
  cases o <;> simp [holds]

theorem superseding_iff (k : FrameKind) : k.superseding = true ↔ k = .cascade ∨ k = .status := by
  cases k <;> simp [FrameKind.superseding]

theorem pendingOfKind_iff (k : FrameKind) (x : Slot) :
    pendingOfKind k x = true ↔ x.inTransmission = false ∧ x.frame.kind = k := by
  simp [pendingOfKind, Slot.isPending]

/-- R160: the slot at this place holds the pending frame that a new frame of the kind supersedes. -/
def Supersedes (k : FrameKind) (v : Slots) (i : Fin 4) : Prop :=
  (k = .cascade ∨ k = .status) ∧ ∃ x, v[i] = some x ∧ x.inTransmission = false ∧ x.frame.kind = k

theorem holds_pendingOfKind (k : FrameKind) (o : Option Slot) :
    holds (pendingOfKind k) o = true ↔ ∃ x, o = some x ∧ x.inTransmission = false ∧ x.frame.kind = k := by
  simp only [holds_iff, pendingOfKind_iff]

theorem of_supersededPlace {k : FrameKind} {i : Fin 4} (h : supersededPlace k v = some i) : Supersedes k v i := by
  unfold supersededPlace at h
  split at h
  case isTrue hk => exact ⟨(superseding_iff k).mp hk, (holds_pendingOfKind k _).mp (of_findPlace h)⟩
  case isFalse => cases h

theorem supersededPlace_eq_none {k : FrameKind} : supersededPlace k v = none ↔ ∀ i, ¬Supersedes k v i := by
  constructor
  · rintro h i ⟨hk, hx⟩
    rw [supersededPlace, if_pos ((superseding_iff k).mpr hk), findPlace_eq_none] at h
    exact Bool.false_ne_true ((h i).symm.trans ((holds_pendingOfKind k _).mpr hx))
  · intro h
    cases hp : supersededPlace k v with
    | none => rfl
    | some i => exact absurd (of_supersededPlace hp) (h i)

end Places

section Choice

variable {before : Slot → Slot → Bool} {p : Slot → Bool} {v : Slots}

/-- One place looked at in the choice among the slots. -/
def pickStep (before : Slot → Slot → Bool) (p : Slot → Bool) (v : Slots) (best : Option (Fin 4 × Slot)) (i : Fin 4) :
    Option (Fin 4 × Slot) :=
  match v[i] with
  | some x =>
    if p x then
      match best with
      | some (_, y) => if before x y then some (i, x) else best
      | none => some (i, x)
    else best
  | none => best

theorem pick_eq_foldl (before : Slot → Slot → Bool) (p : Slot → Bool) (v : Slots) :
    pick before p v = places.foldl (pickStep before p v) none := rfl

/-- The best one stays if nothing at this place is admitted and comes before it, and is replaced otherwise. -/
theorem pickStep_cases (before : Slot → Slot → Bool) (p : Slot → Bool) (v : Slots) (best : Option (Fin 4 × Slot)) (i : Fin 4) :
    pickStep before p v best i = best ∧
      (∀ y, v[i] = some y → p y = true → ∃ j x, best = some (j, x) ∧ before y x = false) ∨
    ∃ x, v[i] = some x ∧ p x = true ∧ pickStep before p v best i = some (i, x) ∧
      ∀ j y, best = some (j, y) → before x y = true := by
  unfold pickStep
  generalize v[i] = o
  rcases o with _ | x
  · exact .inl ⟨rfl, nofun⟩
  cases hp : p x with
  | false => exact .inl ⟨by simp [hp], by simp [hp]⟩
  | true =>
    rcases best with _ | ⟨j, y⟩
    · exact .inr ⟨x, rfl, hp, by simp [hp], nofun⟩
    cases hxy : before x y with
    | false => exact .inl ⟨by simp [hxy], by simp [hxy]⟩
    | true => exact .inr ⟨x, rfl, hp, by simp [hp, hxy], by simp [hxy]⟩

/-- A strict order in which what comes before neither of two comes before neither of them after a change for the better. -/
structure Ranks (before : Slot → Slot → Bool) : Prop where
  irrefl : ∀ x, before x x = false
  better : ∀ x y z, before x y = true → before z y = false → before z x = false

/-- Among the slots at the places of l that p admits, none comes before the best one. -/
structure Best (before : Slot → Slot → Bool) (p : Slot → Bool) (v : Slots) (l : List (Fin 4))
    (best : Option (Fin 4 × Slot)) : Prop where
  admitted : ∀ i x, best = some (i, x) → v[i] = some x ∧ p x = true
  first : ∀ j ∈ l, ∀ y, v[j] = some y → p y = true → ∃ i x, best = some (i, x) ∧ before y x = false

theorem Best.step (hr : Ranks before) {l : List (Fin 4)} {best : Option (Fin 4 × Slot)} (h : Best before p v l best)
    (i : Fin 4) : Best before p v (l ++ [i]) (pickStep before p v best i) := by
  have keep (hi : ∀ y, v[i] = some y → p y = true → ∃ j x, best = some (j, x) ∧ before y x = false) :
      Best before p v (l ++ [i]) best := by
    refine ⟨h.admitted, fun j hj => ?_⟩
    rcases List.mem_append.mp hj with hj | hj
    · exact h.first j hj
    · exact List.mem_singleton.mp hj ▸ hi
  have change {x : Slot} (hx : v[i] = some x) (hp : p x = true)
      (hb : ∀ j y, best = some (j, y) → before x y = true) : Best before p v (l ++ [i]) (some (i, x)) := by
    refine ⟨fun j y e => ?_, fun j hj y hy hpy => ⟨i, x, rfl, ?_⟩⟩
    · obtain ⟨rfl, rfl⟩ := Prod.mk.inj (Option.some.inj e)
      exact ⟨hx, hp⟩
    · rcases List.mem_append.mp hj with hj | hj
      · obtain ⟨k, z, hz, hyz⟩ := h.first j hj y hy hpy
        exact hr.better x z y (hb k z hz) hyz
      · obtain rfl := List.mem_singleton.mp hj
        obtain rfl := Option.some.inj (hx.symm.trans hy)
        exact hr.irrefl x
  rcases pickStep_cases before p v best i with ⟨e, hi⟩ | ⟨x, hx, hp, e, hb⟩ <;> rw [e]
  · exact keep hi
  · exact change hx hp hb

theorem Best.foldl (hr : Ranks before) (l' : List (Fin 4)) {l : List (Fin 4)} {best : Option (Fin 4 × Slot)}
    (h : Best before p v l best) : Best before p v (l ++ l') (l'.foldl (pickStep before p v) best) := by
  induction l' generalizing l best with
  | nil => simpa using h
  | cons i l' ih => simpa using ih (h.step hr i)

theorem pick_best (hr : Ranks before) (p : Slot → Bool) (v : Slots) : Best before p v places (pick before p v) :=
  Best.foldl (l := []) hr places ⟨by simp, by simp⟩

theorem ranks_contendsBefore : Ranks contendsBefore := by
  constructor
  · simp [contendsBefore]
  · intro x y z
    simp only [contendsBefore, Bool.or_eq_true, Bool.and_eq_true, decide_eq_true_eq, beq_iff_eq, Bool.or_eq_false_iff,
      Bool.and_eq_false_iff, decide_eq_false_iff_not, beq_eq_false_iff_ne]
    omega

theorem ranks_displacedBefore : Ranks displacedBefore := by
  constructor
  · simp [displacedBefore]
  · intro x y z
    simp only [displacedBefore, Bool.or_eq_true, Bool.and_eq_true, decide_eq_true_eq, beq_iff_eq, Bool.or_eq_false_iff,
      Bool.and_eq_false_iff, decide_eq_false_iff_not, beq_eq_false_iff_ne]
    omega

theorem urgency_lt (x y : Slot) : x.urgency < y.urgency ↔ x.frame.kind.precedence < y.frame.kind.precedence := Iff.rfl

theorem urgency_eq (x y : Slot) : x.urgency = y.urgency ↔ x.frame.kind.precedence = y.frame.kind.precedence :=
  BitVec.toNat_inj

/-- R162: the frame put up is pending, and the first of the pending ones. -/
theorem chooseFrame_best {i : Fin 4} {x : Slot} (h : chooseFrame v = some (i, x)) :
    v[i] = some x ∧ x.inTransmission = false ∧ ∀ (j : Fin 4) (y : Slot), v[j] = some y → y.inTransmission = false →
      x.frame.kind.precedence < y.frame.kind.precedence ∨
      (x.frame.kind.precedence = y.frame.kind.precedence ∧ x.order ≤ y.order) := by
  have hb := pick_best ranks_contendsBefore Slot.isPending v
  obtain ⟨hx, hp⟩ := hb.admitted i x h
  refine ⟨hx, by simpa [Slot.isPending] using hp, fun j y hy hpy => ?_⟩
  obtain ⟨k, z, hz, hyz⟩ := hb.first j (mem_places j) y hy (by simpa [Slot.isPending] using hpy)
  obtain ⟨-, rfl⟩ := Prod.mk.inj (Option.some.inj (h.symm.trans hz))
  rw [← urgency_lt, ← urgency_eq]
  simp only [contendsBefore, Bool.or_eq_false_iff, Bool.and_eq_false_iff, decide_eq_false_iff_not,
    beq_eq_false_iff_ne] at hyz
  omega

theorem chooseFrame_eq_none : chooseFrame v = none ↔ ∀ (j : Fin 4) (y : Slot), v[j] = some y → y.inTransmission = true := by
  have hb := pick_best ranks_contendsBefore Slot.isPending v
  constructor
  · intro h j y hy
    by_contra hp
    obtain ⟨k, z, hz, -⟩ := hb.first j (mem_places j) y hy (by simpa [Slot.isPending] using hp)
    exact absurd (h.symm.trans hz) nofun
  · intro h
    cases hc : chooseFrame v with
    | none => rfl
    | some b =>
      obtain ⟨hx, hp, -⟩ := chooseFrame_best (i := b.1) (x := b.2) hc
      exact absurd (h _ _ hx) (by simp [hp])

end Choice

section Offers

variable {f : TxFrame} {s : State}

theorem offer_sends (h : s.ec.link.sends = true) : offer f s =
    match supersededPlace f.kind s.txq.slots with
    | some i => takeSlot i f s
    | none =>
      match findPlace Option.isNone s.txq.slots with
      | some i => takeSlot i f s
      | none => offerToFull f s := if_pos h

/-- R160: a CASCADE or STATUS takes the slot of the pending frame of its kind. -/
theorem offer_superseding (h : s.ec.link.sends = true) (hs : ∃ i, Supersedes f.kind s.txq.slots i) :
    ∃ i, Supersedes f.kind s.txq.slots i ∧ offer f s = takeSlot i f s := by
  obtain ⟨i, hi⟩ := hs
  cases hp : supersededPlace f.kind s.txq.slots with
  | none => exact absurd hi (supersededPlace_eq_none.mp hp i)
  | some j => exact ⟨j, of_supersededPlace hp, by simp [offer_sends h, hp]⟩

/-- R159: an offer that supersedes nothing takes a free slot. -/
theorem offer_free (h : s.ec.link.sends = true) (hs : ¬∃ i, Supersedes f.kind s.txq.slots i)
    (hf : ∃ i : Fin 4, s.txq.slots[i] = none) : ∃ i : Fin 4, s.txq.slots[i] = none ∧ offer f s = takeSlot i f s := by
  have hp : supersededPlace f.kind s.txq.slots = none := supersededPlace_eq_none.mpr fun i hi => hs ⟨i, hi⟩
  obtain ⟨i, hi⟩ := hf
  cases hn : findPlace Option.isNone s.txq.slots with
  | none => exact absurd (findPlace_eq_none.mp hn i) (by simp [hi])
  | some j => exact ⟨j, Option.isNone_iff_eq_none.mp (of_findPlace hn), by simp [offer_sends h, hp, hn]⟩

/-- R161: an offer to a full queue. -/
theorem offer_full (h : s.ec.link.sends = true) (hs : ¬∃ i, Supersedes f.kind s.txq.slots i)
    (hf : ∀ i : Fin 4, s.txq.slots[i] ≠ none) : offer f s = offerToFull f s := by
  have hp : supersededPlace f.kind s.txq.slots = none := supersededPlace_eq_none.mpr fun i hi => hs ⟨i, hi⟩
  have hn : findPlace Option.isNone s.txq.slots = none := findPlace_eq_none.mpr fun i => by
    simpa [Option.isNone_eq_false_iff, Option.isSome_iff_ne_none] using hf i
  simp [offer_sends h, hp, hn]

/-- R161: the least urgent of the pending frames, the newest of these, goes if it is less urgent than the new frame, and the
new frame goes otherwise; one is counted. -/
theorem offerToFull_cases (f : TxFrame) (s : State) :
    offerToFull f s = countDropped s ∧
      (∀ (i : Fin 4) (x : Slot), s.txq.slots[i] = some x → x.inTransmission = false →
        x.frame.kind.precedence ≤ f.kind.precedence) ∨
    ∃ (i : Fin 4) (x : Slot), s.txq.slots[i] = some x ∧ x.inTransmission = false ∧
      f.kind.precedence < x.frame.kind.precedence ∧
      (∀ (j : Fin 4) (y : Slot), s.txq.slots[j] = some y → y.inTransmission = false →
        y.frame.kind.precedence < x.frame.kind.precedence ∨
        (y.frame.kind.precedence = x.frame.kind.precedence ∧ y.order ≤ x.order)) ∧
      offerToFull f s = countDropped (takeSlot i f s) := by
  have hb := pick_best ranks_displacedBefore Slot.isPending s.txq.slots
  unfold offerToFull
  cases hp : pick displacedBefore Slot.isPending s.txq.slots with
  | none =>
    refine .inl ⟨rfl, fun i x hx ht => ?_⟩
    obtain ⟨k, z, hz, -⟩ := hb.first i (mem_places i) x hx (by simpa [Slot.isPending] using ht)
    exact absurd (hp.symm.trans hz) nofun
  | some b =>
    obtain ⟨i, x⟩ := b
    obtain ⟨hx, hpx⟩ := hb.admitted i x hp
    have hlast : ∀ (j : Fin 4) (y : Slot), s.txq.slots[j] = some y → y.inTransmission = false →
        y.urgency < x.urgency ∨ y.urgency = x.urgency ∧ y.order ≤ x.order := by
      intro j y hy hpy
      obtain ⟨k, z, hz, hyz⟩ := hb.first j (mem_places j) y hy (by simpa [Slot.isPending] using hpy)
      obtain ⟨-, rfl⟩ := Prod.mk.inj (Option.some.inj (hp.symm.trans hz))
      simp only [displacedBefore, Bool.or_eq_false_iff, Bool.and_eq_false_iff, decide_eq_false_iff_not,
        beq_eq_false_iff_ne] at hyz
      omega
    by_cases hu : f.kind.precedence.toNat < x.urgency
    · exact .inr ⟨i, x, hx, by simpa [Slot.isPending] using hpx, hu,
        fun j y hy hpy => by simpa only [urgency_lt, urgency_eq] using hlast j y hy hpy, by simp [hu]⟩
    · refine .inl ⟨by simp [hu], fun j y hy hpy => ?_⟩
      have hle : y.urgency ≤ f.kind.precedence.toNat := by
        have := hlast j y hy hpy
        omega
      exact hle

end Offers

/-- Settles O56: the four ways of an offer, and the choice of the frame put up. -/
theorem queueOffersAndChoice : Obligations.QueueOffersAndChoice := by
  refine ⟨fun s f => ⟨?_, ?_, ?_, ?_, ?_, offer_silent f s, fun h hs => ?_, fun h hs hf => ?_, fun h hs hf => ?_⟩,
    fun v i x h => chooseFrame_best h⟩
  iterate 5 simp [SameStand, SameQueue]
  · obtain ⟨i, hi, e⟩ := offer_superseding h hs
    exact ⟨by simp [e], i, hi, by rw [e]; rfl⟩
  · obtain ⟨i, hi, e⟩ := offer_free h hs hf
    exact ⟨by simp [e], i, hi, by rw [e]; rfl⟩
  · rw [offer_full h hs hf]
    rcases offerToFull_cases f s with ⟨e, hle⟩ | ⟨i, x, hx, ht, hlt, hlast, e⟩
    · exact ⟨by rw [e]; rfl, .inl ⟨by simp [e], hle⟩⟩
    · exact ⟨by rw [e]; rfl, .inr ⟨i, x, hx, ht, hlt, hlast, by rw [e]; rfl⟩⟩

end Sys2Proof.Machine
end

section
/-! PROOFS. What the stand's side does to the Transmit Queue: it offers frames, and nothing else. -/

namespace Sys2Proof.Machine

variable {s t u : State}

/-- The Transmit Queue and the counts of t are those of s after some offers at the same clock reading; the link is given to the
Link Controller in t where it is in s, and the attempt in progress is the same. -/
structure OnlyOffers (s t : State) : Prop where
  offers : ∃ frames, Offers s t frames
  clock : t.clock = s.clock
  phase : t.ldr.phase = s.ldr.phase
  attempt : t.link.attempt = s.link.attempt

theorem OnlyOffers.of_same (hq : t.txq = s.txq) (he : t.ec = s.ec) (hc : t.clock = s.clock) (hl : t.ldr = s.ldr)
    (ha : t.link.attempt = s.link.attempt) : OnlyOffers s t := ⟨⟨[], hq, he⟩, hc, by rw [hl], ha⟩

theorem OnlyOffers.refl (s : State) : OnlyOffers s s := .of_same rfl rfl rfl rfl rfl

theorem OnlyOffers.trans (h : OnlyOffers s t) (h' : OnlyOffers t u) : OnlyOffers s u := by
  obtain ⟨⟨fs, hq, he⟩, hc, hp, ha⟩ := h
  obtain ⟨⟨gs, hq', he'⟩, hc', hp', ha'⟩ := h'
  have hclock : (fs.foldl (fun u f => offer f u) s).clock = s.clock := by
    clear hq he
    induction fs generalizing s with
    | nil => rfl
    | cons f fs ih => simpa using ih (s := offer f s) (by simpa using hc) (by simpa using hp) (by simpa using ha)
  obtain ⟨e, e'⟩ := offers_congr gs hq he (hc.trans hclock.symm)
  exact ⟨⟨fs ++ gs, by rw [hq', e, List.foldl_append], by rw [he', e', List.foldl_append]⟩, hc'.trans hc, hp'.trans hp,
    ha'.trans ha⟩

theorem offer_onlyOffers (f : TxFrame) (s : State) : OnlyOffers s (offer f s) :=
  ⟨⟨[f], rfl, rfl⟩, by simp, by simp, by simp⟩

theorem raiseAlarm_onlyOffers (k : AlarmKind) (tag : Tag) (d : BitVec 16) (s : State) :
    OnlyOffers s (raiseAlarm k tag d s) :=
  ⟨⟨[.alarm k s.rep.lastAlarm tag d], by simp [Offers]⟩, by simp, by simp, by simp⟩

theorem sensorLost_onlyOffers (d : BitVec 16) (s : State) : OnlyOffers s (sensorLost d s) := by
  unfold sensorLost
  split
  · exact raiseAlarm_onlyOffers ..
  · exact raiseAlarm_onlyOffers ..
  · exact .refl s

theorem stall_onlyOffers (op : LooperOp) (tag : Tag) (s : State) : OnlyOffers s (stall op tag s) :=
  .trans (.of_same (by simp) (by simp) (by simp) (by simp) (by simp)) (raiseAlarm_onlyOffers ..)

theorem setLp_onlyOffers (x : Looper) (s : State) : OnlyOffers s (s.setLp x) := .of_same rfl rfl rfl rfl rfl

theorem raisingPeriod_onlyOffers (timer : Nat) (tag : Tag) (s : State) : OnlyOffers s (raisingPeriod timer tag s) := by
  have hramp : OnlyOffers s (rampUp s) := .of_same (by simp) (by simp) (by simp) (by simp) (by simp)
  refine hramp.trans ?_
  dsimp only [raisingPeriod]
  split_ifs
  · exact setLp_onlyOffers ..
  · exact stall_onlyOffers ..
  · exact setLp_onlyOffers ..

theorem loweringPeriod_onlyOffers (timer : Nat) (tag : Tag) (s : State) : OnlyOffers s (loweringPeriod timer tag s) := by
  have hramp : OnlyOffers s (rampDown s) := .of_same (by simp) (by simp) (by simp) (by simp) (by simp)
  refine hramp.trans ?_
  dsimp only [loweringPeriod]
  split_ifs
  · exact setLp_onlyOffers ..
  · exact stall_onlyOffers ..
  · exact setLp_onlyOffers ..

theorem looperPeriod_onlyOffers (s : State) : OnlyOffers s (looperPeriod s) := by
  unfold looperPeriod
  split
  · exact .refl s
  split
  case h_2 => exact setLp_onlyOffers ..
  case h_3 => exact raisingPeriod_onlyOffers ..
  case h_4 => exact .of_same (by simp) (by simp) (by simp) (by simp) (by simp)
  case h_5 => exact loweringPeriod_onlyOffers ..
  case h_7 => split; exacts [setLp_onlyOffers .., .refl s]
  all_goals exact .refl s

theorem loadOn_onlyOffers (event : Instant) (p : Bool) (s : State) : OnlyOffers s (loadOn event p s) := by
  unfold loadOn
  split
  case h_1 | h_2 =>
    obtain ⟨-, -, -, ho, -⟩ := openBite_spec event p s
    exact ⟨⟨_, ho⟩, by simp, by simp, by simp⟩
  all_goals exact .refl s

theorem loadOff_onlyOffers (event : Instant) (s : State) : OnlyOffers s (loadOff event s) := by
  have closed (b : Bite) : OnlyOffers s (closeBite event b s) := by
    obtain ⟨-, -, -, -, ho, -⟩ := closeBite_spec event b s
    exact ⟨⟨_, ho⟩, by simp, by simp, by simp⟩
  unfold loadOff
  split
  case h_1 | h_2 | h_3 => exact closed _
  case h_4 => exact .refl s

theorem leaveHoldIfReady_onlyOffers (s : State) : OnlyOffers s (leaveHoldIfReady s) :=
  .of_same (by simp) (by simp) (by simp) (by simp) (by simp)

theorem ForceDoes.onlyOffers (h : ForceDoes s t) : OnlyOffers s t := by
  cases h
  case loadOn event _ =>
    exact .trans (.of_same (by simp) (by simp) (by simp) (by simp) (by simp)) (loadOn_onlyOffers ..)
  case loadOff event _ =>
    exact .trans (.of_same (by simp) (by simp) (by simp) (by simp) (by simp))
      ((loadOff_onlyOffers ..).trans (leaveHoldIfReady_onlyOffers _))
  all_goals exact .of_same (by simp) (by simp) (by simp) (by simp) (by simp)

theorem takeForce_onlyOffers (f : Nat) (s : State) : OnlyOffers s (takeForce f s) := by
  have hres : OnlyOffers s (resumed s) := .of_same (by simp) (by simp) (by simp) (by simp) (by simp)
  rcases takeForce_cases f s with e | ⟨-, h⟩
  · rwa [e]
  · exact hres.trans h.onlyOffers

theorem reports_onlyOffers (s : State) :
    OnlyOffers s (leadTail (openWindows (dropMissed (dropOverdue (advanceAll s))))) := by
  obtain ⟨-, -, -, -, ho, -⟩ := reports_spec s
  exact ⟨⟨_, ho⟩, by simp, by simp, by simp⟩

theorem predict_onlyOffers (s : State) : OnlyOffers s (predict s) := by
  unfold predict
  split
  case isFalse => exact .refl s
  split
  case h_1 => split; exacts [loadOn_onlyOffers .., .refl s]
  case h_2 | h_3 | h_4 => split; exacts [loadOff_onlyOffers .., .refl s]
  all_goals exact .refl s

end Sys2Proof.Machine
end

section
/-! PROOFS. R158, R160, R162, R175: the four slots and the attempt in progress agree. The laws count slots; an update of one
slot changes a count by that slot alone. O10 is assembled from these. -/

namespace Sys2Proof.Machine

section Counts

variable {p : Slot → Bool} {v : Slots}

theorem countSlots_eq (p : Slot → Bool) (v : Slots) : countSlots p v =
    (holds p v[0]).toNat + (holds p v[1]).toNat + (holds p v[2]).toNat + (holds p v[3]).toNat := by
  obtain ⟨⟨l⟩, hl⟩ := v
  obtain ⟨a, b, c, d, rfl⟩ : ∃ a b c d, l = [a, b, c, d] := by
    match l, hl with
    | [a, b, c, d], _ => exact ⟨a, b, c, d, rfl⟩
  have one (o : Option Slot) : (if holds p o = true then 1 else 0) = (holds p o).toNat := by cases holds p o <;> rfl
  simp only [countSlots, List.countP_cons, List.countP_nil, one, Vector.toList_mk]
  simp
  omega

theorem countSlots_eq_zero : countSlots p v = 0 ↔ ∀ i : Fin 4, holds p v[i] = false := by
  rw [countSlots_eq]
  constructor
  · intro h i
    fin_cases i <;> simp at h ⊢ <;> simp [h]
  · intro h
    simpa using And.intro (And.intro (And.intro (h 0) (h 1)) (h 2)) (h 3)

theorem countSlots_set (p : Slot → Bool) (v : Slots) (i : Fin 4) (o : Option Slot) :
    countSlots p (v.set i o) + (holds p v[i]).toNat = countSlots p v + (holds p o).toNat := by
  rw [countSlots_eq, countSlots_eq]
  fin_cases i <;> simp <;> omega

theorem countSlots_set_le_one {i : Fin 4} {o : Option Slot} (h : countSlots p v ≤ 1)
    (ho : holds p o = true → holds p v[i] = true ∨ ∀ j : Fin 4, holds p v[j] = false) : countSlots p (v.set i o) ≤ 1 := by
  have hset := countSlots_set p v i o
  cases hp : holds p o with
  | false => simp [hp] at hset; omega
  | true =>
    rcases ho hp with hi | hz
    · rw [hi, hp] at hset
      simp at hset
      omega
    · rw [countSlots_eq_zero.mpr hz, hp] at hset
      simp at hset
      omega

theorem getElem_mapSlots (f : Option Slot → Option Slot) (v : Slots) (i : Fin 4) : (mapSlots f v)[i] = f v[i] := by
  fin_cases i <;> rfl

theorem countSlots_mapSlots_le (f : Option Slot → Option Slot) (v : Slots) (hf : ∀ o, holds p (f o) = true → holds p o = true) :
    countSlots p (mapSlots f v) ≤ countSlots p v := by
  have one (i : Fin 4) : (holds p (f v[i])).toNat ≤ (holds p v[i]).toNat := by
    cases h : holds p (f v[i]) with
    | false => simp
    | true => rw [hf _ h]
  rw [countSlots_eq, countSlots_eq]
  have h0 := one 0
  have h1 := one 1
  have h2 := one 2
  have h3 := one 3
  exact Nat.add_le_add (Nat.add_le_add (Nat.add_le_add h0 h1) h2) h3

theorem countSlots_mapSlots (f : Option Slot → Option Slot) (v : Slots) (hf : ∀ o, holds p (f o) = holds p o) :
    countSlots p (mapSlots f v) = countSlots p v := by
  simp [countSlots_eq, mapSlots, hf]

theorem getElem_set_ne {v : Slots} {i j : Fin 4} (h : i ≠ j) (o : Option Slot) : (v.set i o)[j] = v[j] :=
  Vector.getElem_set_ne _ _ (by simpa [Fin.ext_iff] using h)

theorem getElem_freeSlots (i : Fin 4) : freeSlots[i] = none := by fin_cases i <;> rfl

theorem countSlots_freeSlots (p : Slot → Bool) : countSlots p freeSlots = 0 :=
  countSlots_eq_zero.mpr fun i => by rw [getElem_freeSlots]; rfl

end Counts

section Laws

variable {s t : State} {v : Slots}

/-- R158, R162: what a slot must not hold: more than two failures, or the cleared mark outside a transmission. -/
def Slot.overdone (x : Slot) : Bool := decide (2 < x.attempts) || (x.cleared && !x.inTransmission)

theorem slotsLawful_iff : SlotsLawful v ↔
    countSlots Slot.inTransmission v ≤ 1 ∧ (∀ k : FrameKind, k.superseding = true → countSlots (pendingOfKind k) v ≤ 1) ∧
    ∀ i : Fin 4, holds Slot.overdone v[i] = false := by
  have hover : countSlots (fun x => decide (2 < x.attempts) || (x.cleared && !x.inTransmission)) v = 0 ↔
      ∀ i : Fin 4, holds Slot.overdone v[i] = false := countSlots_eq_zero
  rw [SlotsLawful, hover]
  constructor
  · rintro ⟨ht, hc, hs, ho⟩
    refine ⟨ht, fun k hk => ?_, ho⟩
    rcases (superseding_iff k).mp hk with rfl | rfl
    exacts [hc, hs]
  · rintro ⟨ht, hk, ho⟩
    exact ⟨ht, hk _ rfl, hk _ rfl, ho⟩

/-- The slots and the attempt agree: none is in transmission without an attempt, and just its own with one. -/
theorem attemptLawful_iff (h : countSlots Slot.inTransmission s.txq.slots ≤ 1) : AttemptLawful s ↔
    (s.link.attempt = none → ∀ i : Fin 4, holds Slot.inTransmission s.txq.slots[i] = false) ∧
    ∀ a, s.link.attempt = some a → holds Slot.inTransmission s.txq.slots[a.slot] = true := by
  cases ha : s.link.attempt with
  | none => simp [AttemptLawful, ha, countSlots_eq_zero]
  | some a =>
    have hpos (hi : holds Slot.inTransmission s.txq.slots[a.slot] = true) :
        countSlots Slot.inTransmission s.txq.slots = 1 := by
      have hne : countSlots Slot.inTransmission s.txq.slots ≠ 0 := fun h0 =>
        Bool.false_ne_true ((countSlots_eq_zero.mp h0 a.slot).symm.trans hi)
      omega
    constructor
    · rintro ⟨hin, -⟩
      exact ⟨nofun, fun b hb => hin b (ha.trans hb)⟩
    · rintro ⟨-, hin⟩
      refine ⟨fun b hb => hin b ?_, by simpa [ha] using hpos (hin a rfl)⟩
      simpa [ha] using hb

/-- The laws read the slots, the attempt, the phase of the link's start and the link state only. -/
theorem QueueLawful.of_parts (h : QueueLawful s) (hq : t.txq.slots = s.txq.slots) (ha : t.link.attempt = s.link.attempt)
    (hp : t.ldr.phase ≠ .running → t.ec.link = .joining) (hs : t.ec.link.sends = false → s.ec.link.sends = false) :
    QueueLawful t := by
  obtain ⟨hslots, hatt, -, hsilent⟩ := h
  refine ⟨by rwa [hq], ?_, hp, fun hq' => hq.trans (hsilent (hs hq'))⟩
  rw [attemptLawful_iff hslots.1] at hatt
  rw [attemptLawful_iff (by rw [hq]; exact hslots.1), ha, hq]
  exact hatt

theorem QueueLawful.of_link (h : QueueLawful s) (hq : t.txq = s.txq) (ha : t.link.attempt = s.link.attempt)
    (hp : t.ldr.phase = s.ldr.phase) (he : t.ec.link = s.ec.link) : QueueLawful t :=
  h.of_parts (by rw [hq]) ha (by rw [hp, he]; exact h.2.2.1) (by rw [he]; exact id)

theorem QueueLawful.of_free (hq : t.txq.slots = freeSlots) (ha : t.link.attempt = none)
    (hp : t.ldr.phase ≠ .running → t.ec.link = .joining) : QueueLawful t := by
  have hcount (p : Slot → Bool) : countSlots p t.txq.slots = 0 := by rw [hq]; exact countSlots_freeSlots p
  refine ⟨⟨by simp [hcount], by simp [hcount], by simp [hcount], hcount _⟩, ⟨by simp [ha], by simp [ha, hcount]⟩, hp, fun _ => hq⟩

theorem QueueLawful.joining (h : QueueLawful s) (hp : s.ldr.phase ≠ .running) : s.ec.link = .joining := h.2.2.1 hp

theorem QueueLawful.running (h : QueueLawful s) (hl : s.ec.link ≠ .joining) : s.ldr.phase = .running := by
  by_contra hp
  exact hl (h.joining hp)

theorem QueueLawful.free (h : QueueLawful s) (hl : s.ec.link.sends = false) : s.txq.slots = freeSlots := h.2.2.2 hl

/-- With no frame in a slot there is no attempt. -/
theorem QueueLawful.silent (h : QueueLawful s) (hl : s.ec.link.sends = false) : s.link.attempt = none := by
  obtain ⟨-, ⟨hin, -⟩, -, hfree⟩ := h
  cases ha : s.link.attempt with
  | none => rfl
  | some a =>
    have := hin a ha
    rw [hfree hl, getElem_freeSlots] at this
    cases this

/-- R159, R160: a slot that is free, or whose pending frame is superseded or displaced, is taken. -/
theorem QueueLawful.takeSlot (h : QueueLawful s) {i : Fin 4} {f : TxFrame} (hl : s.ec.link.sends = true)
    (hi : holds Slot.inTransmission s.txq.slots[i] = false)
    (hk : Supersedes f.kind s.txq.slots i ∨ ∀ j, ¬Supersedes f.kind s.txq.slots j) : QueueLawful (takeSlot i f s) := by
  obtain ⟨hslots, hatt, hphase, -⟩ := h
  obtain ⟨htrans, hkinds, hover⟩ := slotsLawful_iff.mp hslots
  rw [attemptLawful_iff htrans] at hatt
  obtain ⟨hnone, hsome⟩ := hatt
  have hne {j : Fin 4} (hj : holds Slot.inTransmission s.txq.slots[j] = true) : i ≠ j := by
    rintro rfl
    exact Bool.false_ne_true (hi.symm.trans hj)
  have htrans' : countSlots Slot.inTransmission (Machine.takeSlot i f s).txq.slots ≤ 1 :=
    countSlots_set_le_one htrans (by simp [holds])
  refine ⟨slotsLawful_iff.mpr ⟨htrans', fun k hks => countSlots_set_le_one (hkinds k hks) fun hp => ?_, fun j => ?_⟩,
    (attemptLawful_iff htrans').mpr ⟨fun ha j => ?_, fun a ha => ?_⟩, by simpa using hphase, by simp [hl]⟩
  · have hfk : f.kind = k := ((pendingOfKind_iff k _).mp hp).2
    rw [hfk] at hk
    refine hk.imp (fun hsup => (holds_pendingOfKind k _).mpr hsup.2) fun hno j => ?_
    rw [← Bool.not_eq_true, holds_pendingOfKind]
    exact fun hx => hno j ⟨(superseding_iff k).mp hks, hx⟩
  · by_cases hij : i = j
    · subst hij
      simp [Machine.takeSlot, holds, Slot.overdone]
    · exact (congrArg _ (getElem_set_ne hij _)).trans (hover j)
  · by_cases hij : i = j
    · subst hij
      simp [Machine.takeSlot, holds]
    · exact (congrArg _ (getElem_set_ne hij _)).trans (hnone (by simpa using ha) j)
  · have ha' := hsome a (by simpa using ha)
    exact (congrArg _ (getElem_set_ne (hne ha') _)).trans ha'

theorem QueueLawful.countDropped (h : QueueLawful s) : QueueLawful (countDropped s) :=
  h.of_link (by simp) (by simp) (by simp) (by simp [Machine.countDropped])

theorem QueueLawful.offer (h : QueueLawful s) (f : TxFrame) : QueueLawful (offer f s) := by
  cases hl : s.ec.link.sends with
  | false => rwa [offer_silent f s hl]
  | true =>
    by_cases hs : ∃ i, Supersedes f.kind s.txq.slots i
    · obtain ⟨i, hi, e⟩ := offer_superseding hl hs
      obtain ⟨-, x, hx, ht, -⟩ := id hi
      rw [e]
      exact h.takeSlot hl (by rw [hx]; exact ht) (.inl hi)
    have hno : ∀ j, ¬Supersedes f.kind s.txq.slots j := fun j hj => hs ⟨j, hj⟩
    by_cases hf : ∃ i : Fin 4, s.txq.slots[i] = none
    · obtain ⟨i, hi, e⟩ := offer_free hl hs hf
      rw [e]
      exact h.takeSlot hl (by rw [hi]; rfl) (.inr hno)
    · rw [offer_full hl hs fun i hi => hf ⟨i, hi⟩]
      rcases offerToFull_cases f s with ⟨e, -⟩ | ⟨i, x, hx, ht, -, -, e⟩ <;> rw [e]
      · exact h.countDropped
      · exact (h.takeSlot hl (by rw [hx]; exact ht) (.inr hno)).countDropped

theorem QueueLawful.onlyOffers (h : QueueLawful s) (ho : OnlyOffers s t) : QueueLawful t := by
  obtain ⟨⟨fs, hq, he⟩, -, hp, ha⟩ := ho
  have hall : QueueLawful (fs.foldl (fun u f => Machine.offer f u) s) ∧
      (fs.foldl (fun u f => Machine.offer f u) s).ldr = s.ldr ∧
      (fs.foldl (fun u f => Machine.offer f u) s).link = s.link := by
    clear hq he hp ha
    induction fs generalizing s with
    | nil => exact ⟨h, rfl, rfl⟩
    | cons f fs ih => simpa using ih (h.offer f)
  obtain ⟨hall, hl, hk⟩ := hall
  exact hall.of_link hq (by rw [ha, hk]) (by rw [hp, hl]) (by rw [he])

/-- An update of every slot that changes no mark but clears some, and frees pending frames only. -/
theorem QueueLawful.mapSlots (h : QueueLawful s) (f : Option Slot → Option Slot)
    (hf : ∀ o, holds Slot.inTransmission (f o) = holds Slot.inTransmission o)
    (hk : ∀ k o, holds (pendingOfKind k) (f o) = true → holds (pendingOfKind k) o = true)
    (ho : ∀ o, holds Slot.overdone o = false → holds Slot.overdone (f o) = false) (hn : f none = none)
    (hq : t.txq.slots = mapSlots f s.txq.slots) (ha : t.link.attempt = s.link.attempt) (hp : t.ldr.phase = s.ldr.phase)
    (he : t.ec = s.ec) : QueueLawful t := by
  obtain ⟨hslots, hatt, hphase, hfree⟩ := h
  obtain ⟨htrans, hkinds, hover⟩ := slotsLawful_iff.mp hslots
  rw [attemptLawful_iff htrans] at hatt
  have htrans' : countSlots Slot.inTransmission t.txq.slots ≤ 1 := by rwa [hq, countSlots_mapSlots f _ hf]
  refine ⟨slotsLawful_iff.mpr ⟨htrans', fun k hks => ?_, fun i => ?_⟩, (attemptLawful_iff htrans').mpr ?_,
    by rwa [hp, he], fun hs => ?_⟩
  · rw [hq]
    exact (countSlots_mapSlots_le f _ (hk k)).trans (hkinds k hks)
  · rw [hq, getElem_mapSlots]
    exact ho _ (hover i)
  · rw [ha, hq]
    simp only [getElem_mapSlots, hf]
    exact hatt
  · rw [hq, hfree (he ▸ hs)]
    simp [Machine.mapSlots, freeSlots, hn]

theorem QueueLawful.clearedAtHold (h : QueueLawful s) (hq : t.txq.slots = Machine.mapSlots clearAtHold s.txq.slots)
    (ha : t.link.attempt = s.link.attempt) (hp : t.ldr.phase = s.ldr.phase) (he : t.ec = s.ec) : QueueLawful t := by
  refine h.mapSlots clearAtHold ?_ ?_ ?_ rfl hq ha hp he
  · rintro (_ | x)
    · rfl
    · cases hx : x.inTransmission <;> simp only [clearAtHold, hx] <;> split <;> simp [holds, hx]
  · rintro k (_ | x)
    · exact id
    · cases hx : x.inTransmission <;> simp only [clearAtHold, hx] <;> split <;> simp [holds, pendingOfKind, Slot.isPending, hx]
  · rintro (_ | x)
    · exact id
    · cases hx : x.inTransmission <;> simp only [clearAtHold, hx] <;> split <;> simp [holds, Slot.overdone, hx]

theorem enterHoldIfActive_queueLawful (h : QueueLawful s) : QueueLawful (enterHoldIfActive s) := by
  rcases enterHoldIfActive_cases s with ⟨e, -⟩ | ⟨e, -⟩ <;> rw [e]
  · exact h
  · exact h.clearedAtHold (by simp) (by simp) (by simp) (by simp)

end Laws

section Attempts

variable {s t : State} {i : Fin 4}

/-- R162: the chosen slot goes into transmission where none was. -/
theorem startContest_queueLawful (h : QueueLawful s) (hm : mayContest s = true) : QueueLawful (startContest s) := by
  obtain ⟨⟨⟨⟨hrun, hsends⟩, -⟩, hatt⟩, hany⟩ : (((s.ldr.phase = .running ∧ s.ec.link.sends = true) ∧ s.link.idle = true) ∧
      s.link.attempt = none) ∧ anyPending s.txq.slots = true := by simpa [mayContest] using hm
  obtain ⟨⟨i, x⟩, hc⟩ := Option.isSome_iff_exists.mp hany
  obtain ⟨hx, hpx, -⟩ := chooseFrame_best hc
  obtain ⟨hslots, hlaw, -, -⟩ := h
  obtain ⟨htrans, hkinds, hover⟩ := slotsLawful_iff.mp hslots
  have hnone := ((attemptLawful_iff htrans).mp hlaw).1 hatt
  have hq : (startContest s).txq.slots =
      s.txq.slots.set i (some { markSaturated s.clock x with inTransmission := true }) := by simp [startContest, hc]
  have htrans' : countSlots Slot.inTransmission (startContest s).txq.slots ≤ 1 := by
    rw [hq]
    exact countSlots_set_le_one htrans fun _ => .inr hnone
  have hin : holds Slot.inTransmission (startContest s).txq.slots[i] = true := by
    rw [hq]
    simp [holds]
  refine ⟨slotsLawful_iff.mpr ⟨htrans', fun k hk => ?_, fun j => ?_⟩, (attemptLawful_iff htrans').mpr ⟨?_, fun a ha => ?_⟩,
    by simp [hrun], by simp [hsends]⟩
  · rw [hq]
    exact countSlots_set_le_one (hkinds k hk) (by simp [holds, pendingOfKind, Slot.isPending])
  · rw [hq]
    by_cases hij : i = j
    · subst hij
      have hx' := hover i
      rw [hx] at hx'
      simp only [holds, Slot.overdone, Bool.or_eq_false_iff] at hx'
      simp [holds, Slot.overdone, markSaturated] at hx' ⊢
      exact hx'.1
    · rw [getElem_set_ne hij]
      exact hover j
  · simp [startContest, hc]
  · obtain rfl : a.slot = i := by
      simp only [startContest, hc, setLink_link, Option.some.injEq] at ha
      rw [← ha]
    exact hin

/-- What an attempt may leave in its slot: nothing, or a frame that is pending again, not cleared, failed at most twice, and
with no newer frame of its superseding kind. -/
structure Settles (v : Slots) (i : Fin 4) (o : Option Slot) : Prop where
  pending : holds Slot.inTransmission o = false
  lawful : holds Slot.overdone o = false
  newest : ∀ k : FrameKind, k.superseding = true → holds (pendingOfKind k) o = true →
    ∀ j, i ≠ j → holds (pendingOfKind k) v[j] = false

theorem settles_none (v : Slots) (i : Fin 4) : Settles v i none := ⟨rfl, rfl, nofun⟩

theorem newerPending_eq_false (k : FrameKind) (v : Slots) : newerPending i k v = false ↔
    (k.superseding = true → ∀ j, i ≠ j → holds (pendingOfKind k) v[j] = false) := by
  simp only [newerPending, Bool.and_eq_false_iff, List.any_eq_false, Bool.not_eq_true, bne_eq_false_iff_eq]
  constructor
  · rintro (h | h) hk j hj
    · exact absurd hk (by simp [h])
    · exact (h j (mem_places j)).resolve_left hj.symm
  · intro h
    cases hk : k.superseding with
    | false => exact .inl rfl
    | true =>
      refine .inr fun j _ => ?_
      by_cases hj : j = i
      · exact .inl hj
      · exact .inr (h hk j (Ne.symm hj))

theorem settles_backToPending (v : Slots) (i : Fin 4) {x : Slot} (hx : x.attempts ≤ 2) : Settles v i (backToPending i x v) := by
  unfold backToPending
  split
  case isTrue => exact settles_none v i
  case isFalse h =>
    simp only [Bool.not_eq_true, Bool.or_eq_false_iff] at h
    obtain ⟨hclear, hnew⟩ := h
    refine ⟨rfl, by simp [holds, Slot.overdone, hclear]; exact hx, fun k hk hp j hj => ?_⟩
    obtain rfl := ((pendingOfKind_iff k _).mp hp).2
    exact (newerPending_eq_false _ v).mp hnew hk j hj

theorem settled_queueLawful (h : QueueLawful s) {a : Attempt} {o : Option Slot} (ha : s.link.attempt = some a)
    (ho : Settles s.txq.slots a.slot o) (hq : t.txq.slots = s.txq.slots.set a.slot o) (hatt : t.link.attempt = none)
    (hl : t.ec.link.sends = true) (hp : t.ldr.phase = s.ldr.phase) : QueueLawful t := by
  have hrun : s.ldr.phase = .running := h.running fun hj => by
    have := h.silent (by rw [hj]; rfl)
    exact absurd (ha.symm.trans this) nofun
  obtain ⟨hslots, hlaw, -, -⟩ := h
  obtain ⟨htrans, hkinds, hover⟩ := slotsLawful_iff.mp hslots
  have hin := ((attemptLawful_iff htrans).mp hlaw).2 a ha
  have hzero : countSlots Slot.inTransmission t.txq.slots = 0 := by
    have hset := countSlots_set Slot.inTransmission s.txq.slots a.slot o
    rw [hin, ho.pending] at hset
    rw [hq]
    simp at hset
    omega
  have hpend (k : FrameKind) : holds (pendingOfKind k) s.txq.slots[a.slot] = false := by
    rw [← Bool.not_eq_true, holds_pendingOfKind]
    rintro ⟨x, hx, hxt, -⟩
    rw [hx] at hin
    exact Bool.false_ne_true (hxt.symm.trans hin)
  refine ⟨slotsLawful_iff.mpr ⟨hzero.le.trans zero_le_one, fun k hk => ?_, fun j => ?_⟩,
    (attemptLawful_iff (hzero.le.trans zero_le_one)).mpr ⟨fun _ => countSlots_eq_zero.mp hzero, by simp [hatt]⟩,
    fun hne => absurd (hp.trans hrun) hne, by simp [hl]⟩
  · rw [hq]
    refine countSlots_set_le_one (hkinds k hk) fun hpo => .inr fun j => ?_
    by_cases hij : a.slot = j
    · exact hij ▸ hpend k
    · exact ho.newest k hk hpo j hij
  · rw [hq]
    by_cases hij : a.slot = j
    · subst hij
      simpa using ho.lawful
    · rw [getElem_set_ne hij]
      exact hover j

end Attempts

end Sys2Proof.Machine
end

section
/-! PROOFS. R169, R170: the error counts and the link state, and what an attempt leaves in its slot. O10 and O11 are assembled
from these, outcome by outcome. -/

namespace Sys2Proof.Machine

section Counts

variable {e : ErrorConfinement}

theorem linkByCounts_sends (tx rx : Nat) : (linkByCounts tx rx).sends = true := by
  unfold linkByCounts
  split_ifs <;> rfl

/-- R170: only a link state in which frames are sent follows the counts. -/
theorem follow_eq (e : ErrorConfinement) :
    e.follow = if e.link.sends then { e with link := linkByCounts e.txErrors e.rxErrors } else e := by
  cases h : e.link <;> simp [ErrorConfinement.follow, LinkState.sends, h]

theorem follow_sends (e : ErrorConfinement) : e.follow.link.sends = e.link.sends := by
  rw [follow_eq]
  split
  case isTrue h => exact (linkByCounts_sends _ _).trans h.symm
  case isFalse => rfl

/-- R169: the counts are held in OFF-LINK. -/
theorem cleanReceive_eq (e : ErrorConfinement) :
    e.cleanReceive = if e.link = .offLink then e else { e with rxErrors := e.rxErrors - 1 }.follow := by
  cases h : e.link <;> simp [ErrorConfinement.cleanReceive, h]

theorem receiveError_eq (e : ErrorConfinement) :
    e.receiveError = if e.link = .offLink then e else { e with rxErrors := satAdd e.rxErrors 1 }.follow := by
  cases h : e.link <;> simp [ErrorConfinement.receiveError, h]

theorem attemptSucceeded_eq (e : ErrorConfinement) :
    e.attemptSucceeded = if e.link = .offLink then e else { e with txErrors := e.txErrors - 1 }.follow := by
  cases h : e.link <;> simp [ErrorConfinement.attemptSucceeded, h]

theorem attemptFailed_eq (now : Instant) (e : ErrorConfinement) :
    e.attemptFailed now = if e.link = .offLink then e else if 200 ≤ satAdd e.txErrors 8 then
      { e with txErrors := satAdd e.txErrors 8, link := .offLink, spanBits := 0, spanAt := now, spans := 0 }
    else { e with txErrors := satAdd e.txErrors 8 }.follow := by
  cases h : e.link <;> simp [ErrorConfinement.attemptFailed, h]

theorem cleanReceive_sends (e : ErrorConfinement) : e.cleanReceive.link.sends = e.link.sends := by
  rw [cleanReceive_eq]
  split
  exacts [rfl, follow_sends _]

theorem receiveError_sends (e : ErrorConfinement) : e.receiveError.link.sends = e.link.sends := by
  rw [receiveError_eq]
  split
  exacts [rfl, follow_sends _]

theorem attemptSucceeded_sends (e : ErrorConfinement) : e.attemptSucceeded.link.sends = e.link.sends := by
  rw [attemptSucceeded_eq]
  split
  exacts [rfl, follow_sends _]

/-- R170: a failed attempt takes the link state to OFF-LINK, or leaves it one in which frames are sent. -/
theorem attemptFailed_sends (now : Instant) (e : ErrorConfinement) :
    (e.attemptFailed now).link = .offLink ∨ (e.attemptFailed now).link.sends = e.link.sends := by
  rw [attemptFailed_eq]
  split_ifs
  exacts [.inr rfl, .inl rfl, .inr (follow_sends _)]

theorem spanDone_link (now : Instant) (e : ErrorConfinement) :
    (e.spanDone now).link = if 63 ≤ e.spans then .active else e.link := by
  simp only [ErrorConfinement.spanDone, ErrorConfinement.recover]
  by_cases h : 63 ≤ e.spans
  · rw [if_pos (by omega), if_pos h]
  · rw [if_neg (by omega), if_neg h]

theorem satAdd_le (x k : Nat) : satAdd x k ≤ 255 := by
  unfold satAdd
  split <;> omega

/-- The counts in their ranges are all that a link state that follows them needs. -/
theorem errorsLawful_follow (htx : e.txErrors < 200) (hrx : e.rxErrors ≤ 255) (hd : e.dropped ≤ 255) (hs : e.stray ≤ 255) :
    ErrorsLawful e.follow := by
  have htx' : e.txErrors ≤ 207 := by omega
  rw [follow_eq]
  split
  case isTrue => exact ⟨htx', hrx, hd, hs, fun _ => htx, fun _ => rfl⟩
  case isFalse h => exact ⟨htx', hrx, hd, hs, fun _ => htx, fun h' => absurd h' h⟩

theorem ErrorsLawful.cleanReceive (h : ErrorsLawful e) : ErrorsLawful e.cleanReceive := by
  obtain ⟨-, hrx, hd, hs, hon, -⟩ := id h
  rw [cleanReceive_eq]
  split
  case isTrue => exact h
  case isFalse hl => exact errorsLawful_follow (hon hl) (by simp; omega) hd hs

theorem ErrorsLawful.receiveError (h : ErrorsLawful e) : ErrorsLawful e.receiveError := by
  obtain ⟨-, -, hd, hs, hon, -⟩ := id h
  rw [receiveError_eq]
  split
  case isTrue => exact h
  case isFalse hl => exact errorsLawful_follow (hon hl) (satAdd_le _ _) hd hs

theorem ErrorsLawful.attemptSucceeded (h : ErrorsLawful e) : ErrorsLawful e.attemptSucceeded := by
  obtain ⟨-, hrx, hd, hs, hon, -⟩ := id h
  rw [attemptSucceeded_eq]
  split
  case isTrue => exact h
  case isFalse hl => exact errorsLawful_follow ((Nat.sub_le _ _).trans_lt (hon hl)) hrx hd hs

theorem ErrorsLawful.attemptFailed (h : ErrorsLawful e) (now : Instant) : ErrorsLawful (e.attemptFailed now) := by
  obtain ⟨-, hrx, hd, hs, hon, -⟩ := id h
  rw [attemptFailed_eq]
  split_ifs with hl h200
  · exact h
  · have htx : satAdd e.txErrors 8 ≤ 207 := by
      have := hon hl
      unfold satAdd
      split <;> omega
    exact ⟨htx, hrx, hd, hs, fun hne => absurd rfl hne, nofun⟩
  · exact errorsLawful_follow (Nat.lt_of_not_le h200) hrx hd hs

theorem ErrorsLawful.spanDone (h : ErrorsLawful e) (now : Instant) : ErrorsLawful (e.spanDone now) := by
  obtain ⟨htx, hrx, hd, hs, hon, hl⟩ := h
  simp only [ErrorConfinement.spanDone, ErrorConfinement.recover]
  split
  · exact ⟨by simp, by simp, hd, hs, by simp, fun _ => rfl⟩
  · exact ⟨htx, hrx, hd, hs, hon, hl⟩

/-- The dropped and the stray count take no part in the others' laws. -/
theorem ErrorsLawful.dropped (h : ErrorsLawful e) : ErrorsLawful { e with dropped := satAdd e.dropped 1 } := by
  obtain ⟨htx, hrx, -, hs, hon, hl⟩ := h
  exact ⟨htx, hrx, satAdd_le _ _, hs, hon, hl⟩

theorem ErrorsLawful.stray (h : ErrorsLawful e) : ErrorsLawful { e with stray := satAdd e.stray 1 } := by
  obtain ⟨htx, hrx, hd, -, hon, hl⟩ := h
  exact ⟨htx, hrx, hd, satAdd_le _ _, hon, hl⟩

/-- R171: a change to JOINING asks for a TEC below 200. -/
theorem ErrorsLawful.setLink (h : ErrorsLawful e) {e' : ErrorConfinement} (htx : e'.txErrors = e.txErrors)
    (hrx : e'.rxErrors = e.rxErrors) (hd : e'.dropped = e.dropped) (hs : e'.stray = e.stray) (hon : e.link ≠ .offLink)
    (hl : e'.link.sends = true → e'.link = linkByCounts e.txErrors e.rxErrors) : ErrorsLawful e' := by
  obtain ⟨h1, h2, h3, h4, h5, -⟩ := h
  refine ⟨htx ▸ h1, hrx ▸ h2, hd ▸ h3, hs ▸ h4, fun _ => htx ▸ h5 hon, ?_⟩
  rwa [htx, hrx]

theorem ErrorsLawful.offer {s : State} (h : ErrorsLawful s.ec) (f : TxFrame) : ErrorsLawful (offer f s).ec := by
  rcases offer_ec f s with he | he <;> rw [he]
  exacts [h, h.dropped]

theorem ErrorsLawful.onlyOffers {s t : State} (h : ErrorsLawful s.ec) (ho : OnlyOffers s t) : ErrorsLawful t.ec := by
  obtain ⟨⟨fs, -, he⟩, -, -, -⟩ := ho
  rw [he]
  clear he
  induction fs generalizing s with
  | nil => exact h
  | cons f fs ih => exact ih (h.offer f)

end Counts

section Settling

variable {s : State} {i : Fin 4} {x : Slot}

theorem settleLost_eq (h : s.txq.slots[i] = some x) :
    settleLost i s = s.setTxq { s.txq with slots := s.txq.slots.set i (backToPending i x s.txq.slots) } := by
  unfold settleLost
  rw [h]

theorem settleFailed_eq (h : s.txq.slots[i] = some x) : settleFailed i s =
    if x.cleared then s.setTxq { s.txq with slots := s.txq.slots.set i none }
    else if 3 ≤ x.attempts + 1 then countDropped (s.setTxq { s.txq with slots := s.txq.slots.set i none })
    else s.setTxq { s.txq with
      slots := s.txq.slots.set i (backToPending i { x with attempts := x.attempts + 1 } s.txq.slots) } := by
  unfold settleFailed
  rw [h]

theorem settleFailed_settles (h : s.txq.slots[i] = some x) :
    (∃ o, Settles s.txq.slots i o ∧ (settleFailed i s).txq.slots = s.txq.slots.set i o) ∧
    ((settleFailed i s).ec = s.ec ∨ (settleFailed i s).ec = { s.ec with dropped := satAdd s.ec.dropped 1 }) := by
  rw [settleFailed_eq h]
  split_ifs with hc ha
  · exact ⟨⟨none, settles_none _ i, rfl⟩, .inl rfl⟩
  · exact ⟨⟨none, settles_none _ i, rfl⟩, .inr rfl⟩
  · exact ⟨⟨_, settles_backToPending _ i (by simp; omega), rfl⟩, .inl rfl⟩

theorem settleSucceeded_slots (h : s.txq.slots[i] = some x) :
    (settleSucceeded i s).txq.slots = s.txq.slots.set i none := by
  unfold settleSucceeded
  rw [h]
  dsimp only
  split <;> simp

/-- The slot of the attempt in progress holds a frame in transmission. -/
theorem QueueLawful.attemptSlot (h : QueueLawful s) {a : Attempt} (ha : s.link.attempt = some a) :
    ∃ x, s.txq.slots[a.slot] = some x ∧ x.inTransmission = true := by
  obtain ⟨⟨htrans, -⟩, hlaw, -⟩ := h
  exact (holds_iff _ _).mp (((attemptLawful_iff htrans).mp hlaw).2 a ha)

/-- R158, R162: a frame stands in its slot with at most two failures behind it. -/
theorem QueueLawful.attempts_le (h : QueueLawful s) (hx : s.txq.slots[i] = some x) : x.attempts ≤ 2 := by
  obtain ⟨-, -, hover⟩ := slotsLawful_iff.mp h.1
  have := hover i
  rw [hx] at this
  simp [holds, Slot.overdone] at this
  exact this.1

theorem QueueLawful.sends (h : QueueLawful s) {a : Attempt} (ha : s.link.attempt = some a) : s.ec.link.sends = true := by
  by_contra hl
  exact absurd (ha.symm.trans (h.silent (by simpa using hl))) nofun

end Settling

section Outcomes

variable {s t : State}

theorem attempt_of_hears (h : hears s = true) : s.link.attempt = none := ((hears_iff s).mp h).2

theorem running_of_hears (h : hears s = true) : s.ldr.phase = .running := ((hears_iff s).mp h).1

theorem hears_of_hearsSound (h : hearsSound s = true) : hears s = true := (Bool.and_eq_true_iff.mp h).1

/-- A change of counts that keeps whether the station sends, at a station that has the link. -/
theorem QueueLawful.of_running (h : QueueLawful s) (hr : s.ldr.phase = .running) (hq : t.txq = s.txq)
    (ha : t.link.attempt = s.link.attempt) (hp : t.ldr.phase = s.ldr.phase) (hs : t.ec.link.sends = s.ec.link.sends) :
    QueueLawful t :=
  h.of_parts (by rw [hq]) ha (fun hne => absurd (hp.trans hr) hne) (by rw [hs]; exact id)

theorem receiveClean_queueLawful (marker : Bool) (h : QueueLawful s) (hs : hearsSound s = true) :
    QueueLawful (receiveClean marker s) :=
  h.of_running (running_of_hears (hears_of_hearsSound hs)) (by simp) (by simp [receiveClean, endReception]) (by simp)
    (by simpa [receiveClean, endReception] using cleanReceive_sends s.ec)

theorem LinkDoes.queueLawful (hd : LinkDoes s t) (h : QueueLawful s) : QueueLawful t := by
  cases hd
  case status => exact QueueLawful.offer (h.of_link (by simp) (by simp) (by simp) (by simp)) _
  case ageTick =>
    refine h.mapSlots _ ?_ ?_ ?_ rfl rfl rfl rfl rfl
    · rintro (_ | x)
      · rfl
      · cases hx : x.inTransmission <;> simp [holds, hx, markSaturated]
    · rintro k (_ | x)
      · exact id
      · cases hx : x.inTransmission <;> simp [holds, hx, markSaturated, pendingOfKind, Slot.isPending]
    · rintro (_ | x)
      · exact id
      · cases hx : x.inTransmission <;> simp [holds, hx, markSaturated, Slot.overdone]
  case heard marker hs => exact receiveClean_queueLawful marker h hs
  case stray marker hs =>
    exact (receiveClean_queueLawful marker h hs).of_link (by simp) (by simp) (by simp) (by simp [countStray])
  case endInError drives read hs =>
    refine h.of_running (running_of_hears hs) (by simp) ?_ (by simp) ?_
    · simp [endInError_link]
    · simpa using receiveError_sends s.ec
  case holdError read hs =>
    exact h.of_link (by simp) (by simp [Machine.holdError, countRead, inReception]) (by simp) (by simp)
  case rejected run hs => exact h.of_link rfl rfl rfl rfl
  case lineIdle quiet hs => exact h.of_link (by simp) (by simp [readRecessive]) (by simp) (by simp)
  case contest hm => exact startContest_queueLawful h hm
  case reception frame hs => exact h.of_link (by simp) (by simp [startReception, inReception]) (by simp) rfl
  case lost a bits frame ha =>
    obtain ⟨x, hx, -⟩ := h.attemptSlot ha
    refine settled_queueLawful h ha (settles_backToPending _ a.slot (h.attempts_le hx)) ?_ ?_ ?_ ?_
    · simp [settleLost_eq hx]
    · simp [startReception, inReception]
    · simpa [startReception] using h.sends ha
    · simp
  case bitError a bits ha =>
    obtain ⟨hslots, ⟨hin, hcount⟩, hsilent⟩ := h
    exact ⟨hslots, ⟨fun b hb => by obtain rfl := Option.some.inj hb; exact hin a ha, by simpa [ha] using hcount⟩, hsilent⟩
  case failed a ha =>
    obtain ⟨x, hx, -⟩ := h.attemptSlot ha
    have hx' : (settleFlaw a (captureEnd a.breaking s)).txq.slots[a.slot] = some x := by simpa using hx
    obtain ⟨⟨o, ho, hq⟩, hec⟩ := settleFailed_settles hx'
    simp only [settleFlaw_frame, captureEnd_frame] at ho
    have hlink : (settleFailed a.slot (settleFlaw a (captureEnd a.breaking s))).ec.link = s.ec.link := by
      rcases hec with e | e <;> rw [e] <;> simp
    have hphase : (settleFailed a.slot (settleFlaw a (captureEnd a.breaking s))).ldr.phase = s.ldr.phase := by simp
    generalize settleFailed a.slot (settleFlaw a (captureEnd a.breaking s)) = u at hq hlink hphase
    by_cases hoff : (u.ec.attemptFailed u.clock).link = .offLink
    · refine .of_free (by simp [clearIfOffLink, hoff]) (by simp [endAttempt]) fun hne => ?_
      exact absurd (h.running fun hj => by simpa [hj, LinkState.sends] using h.sends ha) (by simpa [hphase] using hne)
    · have hsends := (attemptFailed_sends u.clock u.ec).resolve_left hoff
      refine settled_queueLawful h ha ho ?_ (by simp [endAttempt]) ?_ (by simp [hphase])
      · simpa [clearIfOffLink, hoff] using hq
      · simpa [hsends, hlink] using h.sends ha
  case succeeded a ha =>
    obtain ⟨x, hx, -⟩ := h.attemptSlot ha
    have hx' : (settleFlaw a (captureEnd false s)).txq.slots[a.slot] = some x := by simpa using hx
    refine settled_queueLawful h ha (settles_none _ a.slot) ?_ ?_ ?_ ?_
    · simpa using settleSucceeded_slots hx'
    · simp [endAttempt]
    · simpa [attemptSucceeded_sends] using h.sends ha
    · simp
  case joined hp hl =>
    exact h.of_parts rfl rfl (fun hne => absurd hp hne) (by simp [linkByCounts_sends])
  case span hl =>
    refine h.of_parts rfl rfl (fun hne => absurd (h.running (by rw [hl]; nofun)) hne) fun _ => by rw [hl]; rfl

theorem setSens_onlyOffers (x : Sensing) (s : State) : OnlyOffers s (s.setSens x) := .of_same rfl rfl rfl rfl rfl

theorem setCas_onlyOffers (x : Cascade) (s : State) : OnlyOffers s (s.setCas x) := .of_same rfl rfl rfl rfl rfl

theorem headOnAction_queueLawful (sender : BitVec 5) (tag : Tag) (age : BitVec 16) (h : QueueLawful s) :
    QueueLawful (headOnAction sender tag age s) := by
  have hec : (headOnAction sender tag age s).ec.link = s.ec.link := by
    unfold headOnAction
    split
    case h_1 => simp
    case h_2 =>
      unfold downstreamHead
      split <;> simp [countStray]
    all_goals rfl
  exact h.of_link (by simp) (by simp) (by simp) hec

theorem takeDrill_ec (target kind : Byte) (s : State) :
    (takeDrill target kind s).ec = s.ec ∨ (takeDrill target kind s).ec = { s.ec with stray := satAdd s.ec.stray 1 } := by
  unfold takeDrill
  split_ifs
  · exact .inr rfl
  · exact .inl rfl
  · exact .inl rfl
  · exact .inl rfl
  · exact .inl rfl
  · exact .inr rfl

theorem takeDrill_attempt (target kind : Byte) (s : State) : (takeDrill target kind s).link.attempt = s.link.attempt := by
  unfold takeDrill
  split_ifs <;> simp

theorem restartStation_queueLawful (target : Byte) (h : QueueLawful s) (ha : s.link.attempt = none) :
    QueueLawful (restartStation target s) := by
  rcases restartStation_cases target s with e | ⟨e, -⟩ | ⟨e, -⟩ <;> rw [e]
  · exact h
  · exact .of_free rfl (by simpa using ha) fun _ => rfl
  · exact enterHoldIfActive_queueLawful (.of_free rfl (by simpa using ha) fun _ => rfl)

theorem giveLink_queueLawful (h : QueueLawful s) (hp : s.ldr.phase = .reading) : QueueLawful (giveLink s) := by
  have hsilent : s.ec.link.sends = false := by
    rw [h.joining (by rw [hp]; nofun)]
    rfl
  exact .of_free (h.free hsilent) (h.silent hsilent) fun hne => absurd rfl hne

theorem Does.queueLawful (hd : Does s t) (h : QueueLawful s) : QueueLawful t := by
  have hclean (marker : Bool) (hs : hearsSound s = true) := receiveClean_queueLawful marker h hs
  cases hd
  case link hd => exact hd.queueLawful h
  case reset => exact .of_free rfl rfl fun _ => rfl
  case release hp => exact h.of_parts rfl rfl (fun _ => h.joining (by rw [hp]; nofun)) id
  case giveLink hp => exact giveLink_queueLawful h hp
  case configure bytes hp _ =>
    refine enterHoldIfActive_queueLawful (giveLink_queueLawful (s := Machine.configure _ s) (h.of_link rfl rfl rfl rfl) ?_)
    exact hp
  case force f _ => exact h.onlyOffers (takeForce_onlyOffers f s)
  case forceSilent | speedSilent | angleSilent =>
    exact h.onlyOffers ((setSens_onlyOffers _ s).trans (sensorLost_onlyOffers ..))
  case hotMetal level =>
    obtain ⟨_, _, e | e⟩ := readHotMetal_cases level s <;> rw [e]
    · exact h.of_link rfl rfl rfl rfl
    · exact h.of_link (by simp) (by simp) (by simp) (by simp)
  case expiry => exact h.onlyOffers ((reports_onlyOffers s).trans (predict_onlyOffers _))
  case looper => exact h.onlyOffers (looperPeriod_onlyOffers s)
  case cascade => exact h.onlyOffers ((setCas_onlyOffers _ s).trans (offer_onlyOffers ..))
  case lineActive => exact enterHoldIfActive_queueLawful (h.of_link rfl rfl rfl rfl)
  case qualified => exact h.of_link (by simp) (by simp) (by simp) (by simp)
  case headOn marker _ _ _ hs _ => exact headOnAction_queueLawful _ _ _ (hclean marker hs)
  case tailOff marker _ _ _ hs _ => exact (hclean marker hs).of_link (by simp) (by simp) (by simp) (by simp)
  case view marker _ _ hs _ => exact (hclean marker hs).of_link (by simp) (by simp) (by simp) (by simp)
  case fields marker _ _ hs => exact (hclean marker hs).of_link (by simp) (by simp) (by simp) (by simp)
  case close marker _ hs => exact (hclean marker hs).of_link (by simp) (by simp) (by simp) (by simp)
  case cancel marker _ hs => exact (hclean marker hs).of_link (by simp) (by simp) (by simp) (by simp)
  case clear marker hs => exact (hclean marker hs).of_link rfl rfl rfl rfl
  case endDrive marker hs => exact (hclean marker hs).of_link (by simp) (by simp) (by simp) (by simp)
  case restart marker target hs =>
    refine restartStation_queueLawful target (hclean marker hs) ?_
    simpa [receiveClean, endReception] using attempt_of_hears (hears_of_hearsSound hs)
  case drill marker target kind hs _ =>
    refine (hclean marker hs).of_link (by simp) (takeDrill_attempt ..) (by simp) ?_
    rcases takeDrill_ec target kind (receiveClean marker s) with e | e <;> rw [e]
  all_goals exact h.of_link (by simp) (by simp) (by simp) (by simp)


theorem LinkDoes.errorsLawful (hd : LinkDoes s t) (hq : QueueLawful s) (h : ErrorsLawful s.ec) : ErrorsLawful t.ec := by
  cases hd
  case status => exact ErrorsLawful.offer (by simpa using h) _
  case heard => exact h.cleanReceive
  case stray => exact h.cleanReceive.stray
  case endInError => exact h.receiveError
  case reception | lost => simpa [startReception] using h
  case failed a ha =>
    obtain ⟨x, hx, -⟩ := hq.attemptSlot ha
    have hx' : (settleFlaw a (captureEnd a.breaking s)).txq.slots[a.slot] = some x := by simpa using hx
    obtain ⟨-, hec⟩ := settleFailed_settles hx'
    simp only [settleFlaw_frame, captureEnd_frame] at hec
    have hu : ErrorsLawful (settleFailed a.slot (settleFlaw a (captureEnd a.breaking s))).ec := by
      rcases hec with e | e <;> rw [e]
      exacts [h, h.dropped]
    simpa using hu.attemptFailed _
  case succeeded => simpa using h.attemptSucceeded
  case joined _ hl => exact h.setLink rfl rfl rfl rfl (by rw [hl]; nofun) fun _ => rfl
  case span => exact h.spanDone _
  case holdError | lineIdle | contest => simpa using h
  all_goals exact h

theorem giveLink_errorsLawful (hq : QueueLawful s) (hp : s.ldr.phase = .reading) (h : ErrorsLawful s.ec) :
    ErrorsLawful (giveLink s).ec :=
  h.setLink rfl rfl rfl rfl (by rw [hq.joining (by rw [hp]; nofun)]; nofun) nofun

theorem enterHoldIfActive_ec (s : State) : (enterHoldIfActive s).ec = s.ec := by simp

theorem headOnAction_ec (sender : BitVec 5) (tag : Tag) (age : BitVec 16) (s : State) :
    (headOnAction sender tag age s).ec = s.ec ∨
      (headOnAction sender tag age s).ec = { s.ec with stray := satAdd s.ec.stray 1 } := by
  unfold headOnAction
  split
  case h_1 => simp
  case h_2 =>
    unfold downstreamHead
    split
    exacts [.inl (by simp), .inr rfl]
  all_goals exact .inl rfl

theorem restartStation_errorsLawful (target : Byte) (h : ErrorsLawful s.ec) : ErrorsLawful (restartStation target s).ec := by
  have hlink (u : State) : ErrorsLawful (restartLink u).ec := ⟨by simp [restartLink], by simp [restartLink],
    by simp [restartLink], by simp [restartLink], by simp [restartLink], nofun⟩
  rcases restartStation_cases target s with e | ⟨e, -⟩ | ⟨e, -⟩ <;> rw [e]
  · exact h
  · exact hlink s
  · rw [enterHoldIfActive_ec]
    exact hlink _

theorem Does.errorsLawful (hd : Does s t) (hq : QueueLawful s) (h : ErrorsLawful s.ec) : ErrorsLawful t.ec := by
  cases hd
  case link hd => exact hd.errorsLawful hq h
  case reset => exact (show ErrorsLawful State.reset.ec by decide)
  case release => exact h
  case giveLink hp => exact giveLink_errorsLawful hq hp h
  case configure bytes hp _ =>
    rw [enterHoldIfActive_ec]
    exact giveLink_errorsLawful (s := Machine.configure _ s) (hq.of_link rfl rfl rfl rfl) hp h
  case force f _ => exact h.onlyOffers (takeForce_onlyOffers f s)
  case forceSilent | speedSilent | angleSilent =>
    exact h.onlyOffers ((setSens_onlyOffers _ s).trans (sensorLost_onlyOffers ..))
  case hotMetal level =>
    obtain ⟨_, _, e | e⟩ := readHotMetal_cases level s <;> rw [e]
    · exact h
    · simpa using h
  case expiry => exact h.onlyOffers ((reports_onlyOffers s).trans (predict_onlyOffers _))
  case looper => exact h.onlyOffers (looperPeriod_onlyOffers s)
  case cascade => exact h.onlyOffers ((setCas_onlyOffers _ s).trans (offer_onlyOffers ..))
  case headOn marker sender tag age _ _ =>
    rcases headOnAction_ec sender tag age (receiveClean marker s) with e | e <;> rw [e]
    exacts [h.cleanReceive, h.cleanReceive.stray]
  case restart marker target _ => exact restartStation_errorsLawful target h.cleanReceive
  case drill marker target kind _ _ =>
    rcases takeDrill_ec target kind (receiveClean marker s) with e | e <;> rw [e]
    exacts [h.cleanReceive, h.cleanReceive.stray]
  case clear | endDrive => exact h.cleanReceive
  case tailOff marker _ _ _ _ _ => simpa [receiveClean, endReception] using h.cleanReceive
  case view marker _ _ _ _ => simpa [receiveClean, endReception] using h.cleanReceive
  case fields marker _ _ _ => simpa [receiveClean, endReception] using h.cleanReceive
  case close marker _ _ => simpa [receiveClean, endReception] using h.cleanReceive
  case cancel marker _ _ => simpa [receiveClean, endReception] using h.cleanReceive
  all_goals simpa using h

end Outcomes

/-- Settles O10, outcome by outcome. -/
theorem queueStaysLawful : Obligations.QueueStaysLawful := fun _ _ =>
  step_keeps (P := QueueLawful) (fun _ _ _ h => h) fun _ _ hd h => hd.queueLawful h

/-- Settles O11, outcome by outcome; the law of the queue goes with it. -/
theorem errorCountsStayBounded : Obligations.ErrorCountsStayBounded := fun _ _ hq he h =>
  (step_keeps (P := fun s => QueueLawful s ∧ ErrorsLawful s.ec) (fun _ _ _ h => h)
    (fun _ _ hd ⟨hq, he⟩ => ⟨hd.queueLawful hq, hd.errorsLawful hq he⟩) ⟨hq, he⟩ h).2

end Sys2Proof.Machine
end

section
/-! PROOFS. Reset and start-up: the pulses of the reset pin, the release (R176, R177), and the configuration image
(R178, R179). O12 and O13 are assembled from these. -/

namespace Sys2Proof.Machine

section Reset

variable {s : State}

theorem execPinReset_eq (now : Instant) (pulse : ResetPulse) (s : State) : exec (.pinReset now pulse) s =
    .next (if pulseResets s.draws pulse then resetBlocks ((s.setClock now).setDraws (s.draws + pulseDraws pulse))
      else (s.setClock now).setDraws (s.draws + pulseDraws pulse)) := rfl

theorem execPinReset_reset {pulse : ResetPulse} (now : Instant) (h : pulseResets s.draws pulse = true) :
    exec (.pinReset now pulse) s = .next (resetBlocks ((s.setClock now).setDraws (s.draws + pulseDraws pulse))) := by
  rw [execPinReset_eq, if_pos h]

theorem execPinReset_ignored {pulse : ResetPulse} (now : Instant) (h : pulseResets s.draws pulse = false) :
    exec (.pinReset now pulse) s = .next ((s.setClock now).setDraws (s.draws + pulseDraws pulse)) := by
  rw [execPinReset_eq, if_neg (by simp [h])]

theorem execResetRelease_held (now : Instant) (position : BitVec 3) (rate : BitVec 2) (commissioning : Bool)
    (h : s.ldr.phase = .held) : exec (.resetRelease now position rate commissioning) s =
      .next (releaseReset position rate commissioning (s.setClock now)) :=
  congrArg _ (if_pos h)

/-- Settles O12, by the pulse and by the phase. -/
theorem resetAndRelease : Obligations.ResetAndRelease := by
  refine ⟨fun s now => ⟨fun later => ?_, recessiveBits_unlinked (s := s.setClock now), ?_, fun us h => ?_, fun us h => ?_,
      fun us h2 h10 => ?_⟩,
    fun s now position rate commissioning => ⟨fun h => ?_, fun h => congrArg _ (if_neg h)⟩⟩
  · exact recessiveBits_unlinked nofun
  · exact execPinReset_reset now rfl
  · have h2 : ¬us < 2 := by omega
    have h10 : ¬us < 10 := by omega
    rw [execPinReset_reset now (by simp [pulseResets, h2, h10])]
    simp [pulseDraws, h10]
    rfl
  · have h2 : ¬2 ≤ us := by omega
    rw [execPinReset_ignored now (by simp [pulseResets, h])]
    simp [pulseDraws, h2]
    rfl
  · have hd : pulseDraws (.low us) = 1 := by simp [pulseDraws, h2, h10]
    cases hp : pulseResets s.draws (.low us) with
    | true => exact .inl (by rw [execPinReset_reset now hp, hd]; rfl)
    | false => exact .inr (by rw [execPinReset_ignored now hp, hd])
  · have hfirst : (position.toNat + 1 == 1) = decide (position = 0) := by
      rw [Bool.eq_iff_iff]
      simp [← BitVec.toNat_inj]
    refine ⟨_, execResetRelease_held now position rate commissioning h, rfl, rfl, rfl, ?_, rfl, rfl, rfl, rfl, rfl,
      ⟨rfl, rfl, rfl, rfl⟩, rfl, rfl⟩
    simp [releaseReset, State.atFirst, State.position, hfirst]

end Reset

section StartUp

variable {s : State}

theorem clampNat_eq_max {lo hi : Nat} (h : lo ≤ hi) (x : Nat) : clampNat lo hi x = max lo (min hi x) := by
  unfold clampNat
  split_ifs <;> omega

theorem within_iff (lo hi x : Nat) : within lo hi x = true ↔ lo ≤ x ∧ x ≤ hi := by simp [within]

theorem getD_of_lt {n : Nat} (v : Vector Nat n) {k : Nat} (h : k < n) : v.toList.getD k 0 = v[k] := by
  simp [List.getD, h]

theorem strictlyDecreasing_iff (v : Values) {n : Nat} (hn : n ≤ 8) : strictlyDecreasing v n = true ↔
    ∀ (k : Nat) (h : k < 8), k < n → v.h[k + 1] < v.h[k] := by
  have hAt {k : Nat} (hk : k < 9) : v.hAt k = v.h[k] := getD_of_lt v.h hk
  simp only [strictlyDecreasing, List.all_eq_true, List.mem_range, decide_eq_true_eq]
  refine ⟨fun h k hk hkn => ?_, fun h k hkn => ?_⟩
  · rw [← hAt, ← hAt]
    exact h k hkn
  · rw [hAt (by omega), hAt (by omega)]
    exact h k (by omega) hkn

theorem all_within_iff (v : Vector Nat 9) (lo hi : Nat) :
    (v.toList.all fun x => within lo hi x) = true ↔ ∀ (k : Nat) (h : k < 9), lo ≤ v[k] ∧ v[k] ≤ hi := by
  simp only [List.all_eq_true, within_iff, Vector.mem_toList_iff, Vector.mem_iff_getElem]
  exact ⟨fun h k hk => h _ ⟨k, hk, rfl⟩, fun h x ⟨k, hk, e⟩ => e ▸ h k hk⟩

theorem imageInRange_iff (position : Nat) (i : Image) : imageInRange position i = true ↔
    (2 ≤ i.n ∧ i.n ≤ 8 ∧ position ≤ i.n) ∧ (position ≠ 1 → 3000 ≤ i.dUp ∧ i.dUp ≤ 8000) ∧
    (position = 1 → 1000 ≤ i.dEntry ∧ i.dEntry ≤ 20000) ∧ (i.vMin < i.vMax ∧ i.vMax ≤ 25000) ∧
    (100 ≤ i.fOff ∧ i.fOff < i.fOn ∧ i.fOn ≤ 40000) ∧ i.thetaRest ≤ 3000 ∧ (10 ≤ i.band ∧ i.band ≤ 300) ∧
    (1 ≤ i.rateUp ∧ i.rateUp ≤ 100 ∧ 1 ≤ i.rateDown ∧ i.rateDown ≤ 100) ∧
    (100 ≤ i.raiseTimeout ∧ i.raiseTimeout ≤ 2000 ∧ 100 ≤ i.lowerTimeout ∧ i.lowerTimeout ≤ 2000) ∧
    (1000 ≤ i.tMax ∧ i.tMax ≤ 60000) ∧ i.iMax ≤ i.tMax ∧ i.window ≤ 7 ∧
    (∀ (k : Nat) (h : k < 9), 500 ≤ i.defaults.h[k] ∧ i.defaults.h[k] ≤ 65000) ∧
    ∀ (k : Nat) (h : k < 8), k < i.n → i.defaults.h[k + 1] < i.defaults.h[k] := by
  by_cases hn : 2 ≤ i.n ∧ i.n ≤ 8
  · rw [← strictlyDecreasing_iff i.defaults hn.2, ← all_within_iff]
    simp only [imageInRange, Bool.and_eq_true, Bool.or_eq_true, within_iff, decide_eq_true_eq, beq_iff_eq, bne_iff_ne]
    tauto
  · have hf : imageInRange position i = false := by
      rw [← Bool.not_eq_true]
      simp only [imageInRange, Bool.and_eq_true, within_iff]
      tauto
    simp only [hf, Bool.false_eq_true, false_iff]
    tauto

theorem imageGood_iff (position : Nat) (bytes : List Byte) : imageGood position bytes = true ↔
    bytes.length = 101 ∧ (crc (bytes.take 99)).toNat = wordAt bytes 99 ∧ byteAt bytes 28 ≤ 1 ∧
    (byteAt bytes 33 ≤ 3 ∧ byteAt bytes 38 ≤ 3 ∧ byteAt bytes 43 ≤ 3 ∧ byteAt bytes 48 ≤ 3) ∧
    imageInRange position (parseImage position bytes) = true := by
  simp [imageGood, and_assoc]

/-- What a good image makes of the station, before the filtered hold line is looked at. -/
def configured (image : Image) (s : State) : State := giveLink (configure image s)

@[simp] theorem configured_fields (image : Image) (s : State) :
    (configured image s).ldr = { s.ldr with phase := .running, image := image } ∧
    (configured image s).seq = { stand := .empty, bite := none } ∧
    (configured image s).lp = { state := if s.position = image.n then .none else .parked
                                command := image.thetaRest, integral := 0, trim := 0 } ∧
    (configured image s).store = { s.store with staging := image.defaults } ∧
    (configured image s).cas = { s.cas with periodFrom := some s.clock } ∧
    (configured image s).ec = { s.ec with link := .joining, joinBits := 0, joinAt := s.clock } ∧
    (configured image s).rep = { s.rep with periodFrom := some s.clock } ∧
    (configured image s).hold = s.hold ∧ (configured image s).link = { s.link with recessiveAt := s.clock } ∧
    (configured image s).trk = s.trk ∧ (configured image s).sens = s.sens ∧ (configured image s).txq = s.txq ∧
    (configured image s).pending = s.pending ∧ (configured image s).draws = s.draws := by
  by_cases h : s.ldr.positionCode.toNat + 1 = image.n <;>
    simp [configured, giveLink, configure, State.atLast, State.position, h]

/-- A configured station that has no looper operation joins a held train as it stands (R132). -/
theorem enterHold_configured (image : Image) (s : State) :
    (enterHoldIfActive (configured image s)).seq = { stand := if s.hold.filtered then .hold else .empty, bite := none } ∧
    (enterHoldIfActive (configured image s)).lp = (configured image s).lp ∧
    (enterHoldIfActive (configured image s)).store.staging = (configured image s).store.staging ∧
    (s.hold.filtered = false → enterHoldIfActive (configured image s) = configured image s) := by
  have htracks : (configured image s).seq.stand.tracks = true := by simp; rfl
  cases hf : s.hold.filtered with
  | false =>
    have e : enterHoldIfActive (configured image s) = configured image s := by simp [enterHoldIfActive, hf]
    simp [e]
  | true =>
    have e : enterHoldIfActive (configured image s) = holdEntry (configured image s) :=
      if_pos (by rw [htracks]; simp [hf])
    have hlp (tag : Tag) : (holdLowerLooper tag (configured image s)).lp = (configured image s).lp := by
      unfold holdLowerLooper
      split
      case h_1 h | h_2 h =>
        simp only [configured_fields] at h
        split at h <;> cases h
      all_goals rfl
    simp [e, hlp]

theorem execConfigReadDone_good {now : Instant} {bytes : List Byte} (hp : s.ldr.phase = .reading)
    (good : imageGood s.position bytes = true) (ht : elapsed now s.ldr.releasedAt ≤ 20000) :
    exec (.configReadDone now bytes) s = .next (enterHoldIfActive (configured (parseImage s.position bytes) (s.setClock now))) :=
  congrArg _ ((if_pos hp).trans (if_pos (Bool.and_eq_true_iff.mpr ⟨good, decide_eq_true ht⟩)))

/-- Settles O13, by the image and by the phase. -/
theorem startUpEnds : Obligations.StartUpEnds := by
  refine ⟨fun position bytes => ⟨?_, ?_, ⟨?_, ?_, ?_, ?_, ?_, ?_, ?_, ?_, ?_⟩, ?_⟩, ?_,
    fun s now bytes => ⟨fun hp hbad => ?_, fun hp ht => ?_, fun hp => ⟨?_, ?_⟩⟩⟩
  · exact ⟨rfl, rfl, rfl, rfl, rfl, rfl, rfl, rfl, rfl, rfl, rfl, rfl, rfl, rfl, rfl, rfl⟩
  · rfl
  · exact clampNat_eq_max (lo := 1000) (hi := 25000) (by decide) _
  · intro k hk
    interval_cases k <;> rfl
  · intro k hk
    interval_cases k <;> exact clampNat_eq_max (lo := 0) (hi := 150) (by decide) _
  · intro k hk
    interval_cases k <;> exact clampNat_eq_max (lo := 500) (hi := 6000) (by decide) _
  · exact clampNat_eq_max (lo := 0) (hi := 200) (by decide) _
  · exact clampNat_eq_max (lo := 0) (hi := 50) (by decide) _
  · exact clampNat_eq_max (lo := 0) (hi := 50000) (by decide) _
  · exact clampNat_eq_max (lo := 0) (hi := 500) (by decide) _
  · exact clampNat_eq_max (lo := 200) (hi := 5000) (by decide) _
  · rw [imageGood_iff, imageInRange_iff]
    exact Iff.rfl
  · intro s now bytes image hp good ht
    obtain ⟨hseq, hlp, hstaging, hsame⟩ := enterHold_configured (parseImage s.position bytes) (s.setClock now)
    obtain ⟨-, -, hlooper, -⟩ := configured_fields (parseImage s.position bytes) (s.setClock now)
    exact ⟨_, execConfigReadDone_good hp good ht, by simp [image], hseq, hlp.trans hlooper,
      hstaging.trans (by simp [image]), by simp, by simp, by simp, by simp, by simp,
      by simp [SameQueue], fun hf => by simp [hsame hf]⟩
  · refine congrArg _ ((if_pos hp).trans (if_neg ?_))
    intro h
    obtain ⟨good, htime⟩ := Bool.and_eq_true_iff.mp h
    rcases hbad with hbad | hlate
    · exact Bool.false_ne_true (hbad.symm.trans good)
    · exact absurd (of_decide_eq_true htime) (not_le.mpr hlate)
  · exact congrArg _ (if_pos ⟨hp, ht⟩)
  · exact congrArg _ (if_neg hp)
  · exact congrArg _ (if_neg fun h => hp h.1)

end StartUp

end Sys2Proof.Machine
end

section
/-! PROOFS. Stand Sensing: the samples that are held, the silence of an input, the alarms (R110 to R122, R136 to R138), and a force
sample by the side of the threshold it falls on. O14 to O17 and O23 are assembled from these. -/

namespace Sys2Proof.Machine

/-- Two stations that agree in every part are the same. -/
theorem State.eq_of_parts {s t : State} (hp : s.pending = t.pending) (hc : s.clock = t.clock) (hd : s.draws = t.draws)
    (hldr : s.ldr = t.ldr) (hseq : s.seq = t.seq) (htrk : s.trk = t.trk) (hlp : s.lp = t.lp) (hcas : s.cas = t.cas)
    (hstore : s.store = t.store) (hsens : s.sens = t.sens) (hhold : s.hold = t.hold) (hlink : s.link = t.link)
    (htxq : s.txq = t.txq) (hec : s.ec = t.ec) (hrep : s.rep = t.rep) : s = t := by
  cases s
  cases t
  simp_all

section Samples

variable {s : State}

theorem sampling_iff (s : State) : sampling s = true ↔ OutOfReset s := by simp [sampling]

theorem not_sampling_of_held (h : s.ldr.phase = .held) : ¬sampling s = true := by simp [sampling, h]

/-- Settles O14. -/
theorem feedbackSamplesAreHeld : Obligations.FeedbackSamplesAreHeld := by
  intro s now speed angle
  refine ⟨fun h => ⟨congrArg _ (if_pos ((sampling_iff _).mpr h)), ?_⟩,
    fun h => ⟨congrArg _ (if_neg (not_sampling_of_held h)), congrArg _ (if_neg (not_sampling_of_held h))⟩⟩
  have hmin : min angle 9000 = if 9000 < angle then 9000 else angle := by
    split <;> omega
  rw [← hmin]
  exact congrArg _ (if_pos ((sampling_iff _).mpr h))

theorem silent_iff {stale : Bool} {limit since : Nat} (h : OutOfReset s) (hstale : stale = false) (ht : limit ≤ since) :
    (sampling s && !stale && decide (limit ≤ since)) = true := by
  simp [(sampling_iff s).mpr h, hstale, ht]

/-- Settles O15: the alarm goes by the bite, then by the front head marker. -/
theorem silenceMakesStale : Obligations.SilenceMakesStale := by
  intro s now alarmed hout
  have lost (d : BitVec 16) (u : State) (hb : u.seq = s.seq) (hm : u.trk = s.trk) : sensorLost d u = alarmed d u := by
    cases hbite : s.seq.bite <;> cases hhead : s.trk.markers.find? (fun m => m.kind == .head) <;>
      simp [sensorLost, frontHead, hb, hm, alarmed, hbite, hhead]
  refine ⟨fun hs ht => ?_, fun hs ht => ?_, fun hs ht => ?_⟩ <;>
    exact congrArg _ ((if_pos (silent_iff (s := s.setClock now) hout hs ht)).trans (lost _ _ (by simp) (by simp)))

end Samples

section Alarms

theorem toInt_ofInt_16 {k : Int} (hlow : -32768 ≤ k) (hhigh : k ≤ 32767) : (BitVec.ofInt 16 k).toInt = k := by
  rw [BitVec.toInt_ofInt, Int.bmod_def]
  omega

/-- R24: the detail is the rounded distance within the 16 bits. -/
theorem missDetail_toInt (d : Int) : (missDetail d).toInt = clampInt (-32768) 32767 (roundInt d 1000) := by
  obtain ⟨hlow, hhigh⟩ := clampInt_mem (show (-32768 : Int) ≤ 32767 by decide) (roundInt d 1000)
  exact toInt_ofInt_16 hlow hhigh

theorem missDetail_of_round {d k : Int} (h : roundInt d 1000 = k) (hlow : -32768 ≤ k) (hhigh : k ≤ 32767) :
    (missDetail d).toInt = k := by
  rw [missDetail_toInt, h, clampInt, if_neg (by omega), if_neg (by omega)]

theorem missDetail_of_high {d : Int} (h : 32767000 ≤ d) : (missDetail d).toInt = 32767 := by
  have hround : 32767 ≤ roundInt d 1000 := by
    rw [roundInt_of_nonneg (by omega)]
    omega
  rw [missDetail_toInt]
  unfold clampInt
  split_ifs <;> omega

theorem missDetail_of_low {d : Int} (h : d ≤ -32768000) : (missDetail d).toInt = -32768 := by
  have hround : 32768 ≤ roundInt (-d) 1000 := by
    rw [roundInt_of_nonneg (by omega)]
    omega
  rw [roundInt_neg] at hround
  rw [missDetail_toInt]
  unfold clampInt
  split_ifs <;> omega

/-- Settles O16, clause by clause. -/
theorem alarmsAndTheirDetail : Obligations.AlarmsAndTheirDetail := by
  refine ⟨fun s kind tag detail => ⟨?_, ?_, ?_, ?_, ?_, ?_, ?_⟩, fun d => ⟨fun k hl hh hhigh hlow => ?_, fun k h0 hh h => ?_,
    fun k h0 hl h => ?_, fun h => ?_, fun h => ?_⟩⟩
  · simp [Offers]
  · simp
  · rfl
  · simp [SameStand]
  · simp
  · simp [SameQueue]
  · simp
  · exact missDetail_of_round (roundInt_eq_of_nearest (by push_cast; linarith) (by push_cast; linarith)) hl.le hh.le
  · exact missDetail_of_round (roundInt_tie_of_nonneg (by decide) h0 (by push_cast; linarith)) (by omega) (by omega)
  · exact missDetail_of_round (roundInt_tie_of_nonpos (by decide) h0 (by push_cast; linarith)) (by omega) (by omega)
  · exact missDetail_of_low h
  · exact missDetail_of_high h

end Alarms

section ForceSamples

variable {s : State} {now : Instant} {force : Nat}

/-- R110: a station that samples takes the sample at the arrival's instant. -/
theorem execForceSample_eq (now : Instant) (force : Nat) (h : OutOfReset s) :
    exec (.forceSample now force) s = .next (takeForce force (s.setClock now)) :=
  congrArg _ (if_pos ((sampling_iff _).mpr h))

/-- R110: the station at the arrival of a sample on a fresh input. -/
def arrived (now : Instant) (s : State) : State := (s.setClock now).setSens { s.sens with forceAt := now }

theorem execForceSample_fresh (now : Instant) (force : Nat) (h : OutOfReset s) (hs : s.seq.stand ≠ .unconfigured)
    (hf : s.sens.forceStale = false) :
    exec (.forceSample now force) s = .next (evaluateForce (min force 40000) (arrived now s)) := by
  have hres : resumed (s.setClock now) = arrived now s := by
    simp only [resumed, forceArrives, arrived, setClock_sens, hf, Bool.false_eq_true, if_false, setClock_clock]
  rw [execForceSample_eq now force h, takeForce_eq, hres, if_neg]
  exact hs

/-- The far side of the threshold, as the detector sees it. -/
theorem evaluateForce_far {f : Nat} (hd : s.sens.drill ≠ some .blocking)
    (hf : if s.sens.loaded then f < s.ldr.image.fOff else s.ldr.image.fOn ≤ f) : evaluateForce f s = farSample s := by
  cases hl : s.sens.loaded <;> simp_all [evaluateForce]

theorem evaluateForce_near {f : Nat} (hd : s.sens.drill ≠ some .blocking)
    (hf : ¬if s.sens.loaded then f < s.ldr.image.fOff else s.ldr.image.fOn ≤ f) :
    evaluateForce f s = s.setSens { s.sens with run := none } := by
  cases hl : s.sens.loaded <;> simp_all [evaluateForce, nearSample]

theorem evaluateForce_blocking (f : Nat) (hd : s.sens.drill = some .blocking) : evaluateForce f s =
    s.setSens { s.sens with drill := if f < s.ldr.image.fOff then none else some .blocking } := by
  rw [evaluateForce, if_pos hd]
  split
  · rfl
  · rw [← hd]
    rfl

/-- R112 to R114: the run with one more sample. -/
theorem extendRun_eq (s : State) (now : Instant) : extendRun s.sens.run now = { length := runLength s, first := runFirst s now } := by
  unfold runLength runFirst extendRun
  cases s.sens.run <;> simp

theorem farSample_short (h : runLength s < samplesNeeded s.sens.speed) : farSample s =
    s.setSens { s.sens with run := some { length := runLength s, first := runFirst s s.clock } } := by
  simp only [farSample, extendRun_eq]
  exact if_neg (by simpa using h)

theorem execForceSample_far (h : Evaluates s) (hf : FarSide s force) (hr : runLength s < samplesNeeded s.sens.speed) :
    exec (.forceSample now force) s = .next ((s.setClock now).setSens
      { s.sens with forceAt := now, run := some { length := runLength s, first := runFirst s now } }) := by
  obtain ⟨hout, hs, hfresh, hd⟩ := h
  rw [execForceSample_fresh now force hout hs hfresh, evaluateForce_far (s := arrived now s) hd hf,
    farSample_short (s := arrived now s) hr]
  rfl

theorem execForceSample_near (h : Evaluates s) (hf : ¬FarSide s force) :
    exec (.forceSample now force) s = .next ((s.setClock now).setSens { s.sens with forceAt := now, run := none }) := by
  obtain ⟨hout, hs, hfresh, hd⟩ := h
  rw [execForceSample_fresh now force hout hs hfresh, evaluateForce_near (s := arrived now s) hd hf]
  rfl

theorem execForceSample_blocking (hout : OutOfReset s) (hs : s.seq.stand ≠ .unconfigured) (hfresh : s.sens.forceStale = false)
    (hd : s.sens.drill = some .blocking) : exec (.forceSample now force) s = .next ((s.setClock now).setSens
      { s.sens with forceAt := now
                    drill := if min force 40000 < s.ldr.image.fOff then none else some .blocking }) := by
  rw [execForceSample_fresh now force hout hs hfresh, evaluateForce_blocking (s := arrived now s) _ hd]
  rfl

/-- Settles O17. -/
theorem sampleGrowsOrEndsRun : Obligations.SampleGrowsOrEndsRun := fun _ _ _ =>
  ⟨execForceSample_far, execForceSample_near, execForceSample_blocking⟩

end ForceSamples

section Resumption

variable {s : State} {now : Instant} {force : Nat}

/-- R118, R126: the station with its detector aligned at the resumption of a stale force input. -/
def aligned (s : State) : State :=
  s.setSens { s.sens with
    forceStale := false, loaded := s.seq.bite.isSome
    drill := if s.seq.bite.isSome = true ∧ s.sens.drill = some .blocking then none else s.sens.drill }

@[simp] theorem aligned_sens (s : State) : (aligned s).sens = { s.sens with
    forceStale := false, loaded := s.seq.bite.isSome
    drill := if s.seq.bite.isSome = true ∧ s.sens.drill = some .blocking then none else s.sens.drill } := rfl

@[simp] theorem aligned_ldr (s : State) : (aligned s).ldr = s.ldr := rfl

@[simp] theorem aligned_setClock_setSens (s : State) (now : Instant) (x : Sensing) :
    ((aligned s).setClock now).setSens x = (s.setClock now).setSens x := rfl

theorem alignDetector_forceArrives (now : Instant) (s : State) :
    alignDetector (forceArrives (s.setClock now)) = forceArrives ((aligned s).setClock now) := by
  simp [alignDetector, forceArrives, aligned, State.setSens, State.setClock]

/-- R27: the station after the end of its qualified hold. -/
def released (s : State) : State :=
  ((s.setLp (looperAfterHold s)).setCas { s.cas with factor := 0, limited := false }).setSeq { s.seq with stand := .empty }

theorem holdExit_eq (s : State) : holdExit s = released s := by
  apply State.eq_of_parts <;> simp [released]

theorem execForceSample_resumed {t : State} (hs : OutOfReset s) (ht : OutOfReset t)
    (h : resumed (s.setClock now) = resumed (t.setClock now)) :
    exec (.forceSample now force) s = exec (.forceSample now force) t := by
  rw [execForceSample_eq now force hs, execForceSample_eq now force ht, takeForce_eq, takeForce_eq, h]

theorem resumed_of_fresh (hf : s.sens.forceStale = false) : resumed (s.setClock now) = forceArrives (s.setClock now) :=
  if_neg (by simp [hf])

theorem resumed_stale (hf : s.sens.forceStale = true) :
    resumed (s.setClock now) = leaveHoldIfReady (forceArrives ((aligned s).setClock now)) := by
  rw [← alignDetector_forceArrives]
  exact if_pos hf

/-- R27, R118: the alignment ends a qualified hold without a bite, and no other. -/
theorem leaveHold_aligned (now : Instant) (s : State) : leaveHoldIfReady (forceArrives ((aligned s).setClock now)) =
    if s.seq.stand = .hold ∧ s.hold.qualified = true ∧ s.seq.bite = none then
      holdExit (forceArrives ((aligned s).setClock now))
    else forceArrives ((aligned s).setClock now) := by
  unfold leaveHoldIfReady
  congr 1
  simp [forceArrives, aligned]

theorem execForceSample_aligned (hout : OutOfReset s) (hf : s.sens.forceStale = true)
    (h : ¬(s.seq.stand = .hold ∧ s.hold.qualified = true ∧ s.seq.bite = none)) :
    exec (.forceSample now force) s = exec (.forceSample now force) (aligned s) := by
  refine execForceSample_resumed hout hout ?_
  rw [resumed_stale hf, leaveHold_aligned, if_neg h, resumed_of_fresh rfl]

theorem execForceSample_released (hout : OutOfReset s) (hf : s.sens.forceStale = true)
    (h : s.seq.stand = .hold ∧ s.hold.qualified = true ∧ s.seq.bite = none) :
    exec (.forceSample now force) s = exec (.forceSample now force) (released (aligned s)) := by
  refine execForceSample_resumed hout hout ?_
  rw [resumed_stale hf, leaveHold_aligned, if_pos h, resumed_of_fresh rfl, holdExit_eq]
  rfl

/-- R118: in UNCONFIGURED a sample is not evaluated. -/
theorem execForceSample_unconfigured (hout : OutOfReset s) (hf : s.sens.forceStale = false) (hu : s.seq.stand = .unconfigured) :
    exec (.forceSample now force) s = .next (forceArrives (s.setClock now)) := by
  rw [execForceSample_eq now force hout, takeForce_eq, resumed_of_fresh hf, if_pos]
  exact hu

theorem evaluates_aligned (hout : OutOfReset s) (hs : s.seq.stand ≠ .unconfigured)
    (hd : s.seq.bite = none → s.sens.drill ≠ some .blocking) : Evaluates (aligned s) := by
  refine ⟨hout, hs, rfl, ?_⟩
  cases hb : s.seq.bite with
  | none => simpa [aligned, hb] using hd hb
  | some b => by_cases hk : s.sens.drill = some .blocking <;> simp [aligned, hb, hk]

/-- A run that starts with this sample. -/
theorem runLength_of_none (h : s.sens.run = none) : runLength s = 1 ∧ runFirst s now = now := by
  simp [runLength, runFirst, h]

theorem one_lt_samplesNeeded (speed : Nat) : 1 < samplesNeeded speed := by
  unfold samplesNeeded
  split_ifs <;> decide

/-- Settles O23: the sample is taken on the aligned state, which is fresh. -/
theorem resumptionAlignsDetector : Obligations.ResumptionAlignsDetector := by
  refine ⟨fun s now force => ?_, fun s now force hout hf hu hh => ⟨fun hb hnear => ?_, fun hb hd hnear => ?_⟩⟩
  · intro _ hout hf
    refine ⟨execForceSample_aligned hout hf, fun hh hq hb => execForceSample_released hout hf ⟨hh, hq, hb⟩,
      fun hu hb => ?_, fun hu hh hb hr hfar => ?_, fun hu hh hb hr hd hfar => ?_, fun hu hh hb hd => ?_⟩
    · rw [execForceSample_aligned hout hf (by simp [hu]), execForceSample_unconfigured (s := aligned s) hout rfl hu]
      simp [forceArrives, hb]
    · obtain ⟨hlen, hfirst⟩ := runLength_of_none (s := aligned s) (now := now) hr
      rw [execForceSample_aligned hout hf (by simp [hh]), execForceSample_far (evaluates_aligned hout hu fun h => by simp [h] at hb) _
        (by rw [hlen]; exact one_lt_samplesNeeded _), hlen, hfirst]
      · simp [hb]
      · simpa [FarSide, hb] using hfar
    · obtain ⟨hlen, hfirst⟩ := runLength_of_none (s := aligned s) (now := now) hr
      rw [execForceSample_aligned hout hf (by simp [hh]), execForceSample_far (evaluates_aligned hout hu fun _ => hd) _
        (by rw [hlen]; exact one_lt_samplesNeeded _), hlen, hfirst]
      · simp [hb]
      · simpa [FarSide, hb] using hfar
    · rw [execForceSample_aligned hout hf (by simp [hh]),
        execForceSample_blocking (s := aligned s) hout hu rfl (by simp [hb, hd])]
      simp [hb]
  · rw [execForceSample_aligned hout hf (by simp [hh]), execForceSample_near (evaluates_aligned hout hu fun h => by simp [h] at hb)]
    · simp [hb]
    · simpa [FarSide, hb] using hnear
  · rw [execForceSample_aligned hout hf (by simp [hh]), execForceSample_near (evaluates_aligned hout hu fun _ => hd)]
    · simp [hb]
    · simpa [FarSide, hb] using not_le.mpr hnear

end Resumption

end Sys2Proof.Machine
end

section
/-! PROOFS. Load events (R7 to R12, R18 to R21, R27, R125): a decided load-on opens the bite that the arrival is, and a decided
load-off ends it. O18 to O22 are assembled from these. -/

namespace Sys2Proof.Machine

section Flags

variable {s t : State} {now : Instant}

theorem setsFlags_of_marks {p : StickyFlag → Bool} {n : Nat}
    (h : ∀ f, t.stickyMark f = if p f then some ⟨now, n⟩ else s.stickyMark f) : SetsFlags s t now p := by
  intro f
  rw [h f]
  cases p f <;> simp

theorem Offers.of_base {u : State} {frames : List TxFrame} (h : Offers u t frames) (hq : u.txq = s.txq) (he : u.ec = s.ec)
    (hc : u.clock = s.clock) : Offers s t frames := by
  obtain ⟨h1, h2⟩ := offers_congr frames hq he hc
  exact ⟨h.1.trans h1, h.2.trans h2⟩

/-- R157: the flaw that has been sent sets DRILL-FIRED and no other flag. -/
theorem catchUpFlaw_stickyMark (s : State) {f : StickyFlag} (hf : f ≠ .drillFired) :
    (catchUpFlaw s).stickyMark f = s.stickyMark f := by
  rcases catchUpFlaw_cases s with ⟨-, e⟩ | ⟨a, -, -, e⟩ <;> simp [e, hf]

@[simp] theorem catchUpFlaw_reports (s : State) :
    (catchUpFlaw s).rep.lastAlarm = s.rep.lastAlarm ∧ (catchUpFlaw s).rep.periodFrom = s.rep.periodFrom := by
  rcases catchUpFlaw_cases s with ⟨-, e⟩ | ⟨a, -, -, e⟩ <;> simp [e]

end Flags

section Arrivals

variable {s : State}

/-- R7, R8: the arrival of a head that is tracked; at position 1 of one that has a tag, or for which there is no record. -/
theorem arrival_of_head {m : Marker} (hm : frontHead s.trk.markers = some m)
    (h : s.atFirst = true → m.tag ≠ 0 ∨ oldestUnbound s.store.table s.trk.markers = none) :
    s.arrival = { tag := m.tag, early := s.seq.stand == .empty, unannounced := false, bound := false } := by
  simp only [State.arrival, hm]
  by_cases hc : (s.atFirst && m.tag == 0) = true
  · rw [if_pos hc]
    obtain ⟨hfirst, htag⟩ : s.atFirst = true ∧ m.tag = 0 := by simpa using hc
    rw [(h hfirst).resolve_left (not_not_intro htag), htag]
  · rw [if_neg hc]

/-- R9, R10: the arrival of a head that is not tracked and for which there is no record. -/
theorem arrival_of_none (hm : frontHead s.trk.markers = none)
    (h : s.atFirst = false ∨ oldestUnbound s.store.table s.trk.markers = none) :
    s.arrival = { tag := 0, early := false, unannounced := true, bound := false } := by
  simp only [State.arrival, hm]
  rcases h with h | h
  · rw [if_neg (by simp [h])]
  · rw [h]
    simp

/-- R10: the arrival at position 1 to which the oldest unbound record is bound. -/
theorem arrival_bound {r : Record} (hfirst : s.atFirst = true) (hm : ∀ m, frontHead s.trk.markers = some m → m.tag = 0)
    (hr : oldestUnbound s.store.table s.trk.markers = some r) : s.arrival =
      { tag := r.tag, early := s.seq.stand == .empty && (frontHead s.trk.markers).isSome, unannounced := false
        bound := true } := by
  simp only [State.arrival, hr, hfirst]
  cases hh : frontHead s.trk.markers with
  | none => simp
  | some m => simp [hm m hh]

end Arrivals

section LoadOn

variable {s : State} {now : Instant} {force : Nat}

theorem loadOn_of_waiting (event : Instant) (p : Bool) (hs : s.seq.stand = .empty ∨ s.seq.stand = .awaiting) :
    loadOn event p s = openBite event p s := by
  rcases hs with hs | hs <;> simp [loadOn, hs]

/-- R7 to R12, R113: a decided load-on while the stand waits opens the bite of the arrival. -/
theorem execForceSample_opens (h : DecidesLoadOn s force) (hd : s.sens.drill = none)
    (hs : s.seq.stand = .empty ∨ s.seq.stand = .awaiting) : ∃ t, exec (.forceSample now force) s = .next t ∧
      t.seq = { stand := if s.atLast then .coupled else .threading, bite := some (biteOf s s.arrival false) } ∧
      t.trk = (if s.arrival.bound then
          { markers := nameTail s.arrival.tag (removeFirstHead s.trk.markers)
            entryTag := if s.trk.entryTag = 0 then s.arrival.tag else s.trk.entryTag }
        else { s.trk with markers := removeFirstHead s.trk.markers }) ∧
      t.store = { s.store with
        table := if s.arrival.tag = 0 then s.store.table else enterRecord s.arrival.tag s.store.table } ∧
      t.sens = { s.sens with forceAt := now, loaded := true, run := none } ∧
      Offers (s.setClock now) t (arrivalFrames s.arrival s.rep.lastAlarm (runFirst s now)) ∧
      SetsFlags s t now (fun f => (f == .early && s.arrival.early) || (f == .unannounced && s.arrival.unannounced) ||
        (f == .substituted && (findRecord s.store.table s.arrival.tag).isNone)) ∧
      t.rep.lastAlarm = (if s.arrival.unannounced then some .unannouncedLoad else s.rep.lastAlarm) ∧
      t.rep.periodFrom = s.rep.periodFrom ∧
      t.ldr = s.ldr ∧ t.lp = s.lp ∧ t.cas = s.cas ∧ t.hold = s.hold ∧ t.link = s.link ∧ SameQueue s t := by
  let u := (s.setClock now).setSens { s.sens with forceAt := now, loaded := true, run := none }
  have hexec := (execForceSample_loadOn now h hd).trans
    (congrArg _ (loadOn_of_waiting (s := u) (runFirst s now) false hs))
  obtain ⟨hseq, htrk, hstore, ho, hflags, halarm, hperiod⟩ := openBite_spec (runFirst s now) false u
  exact ⟨_, hexec, hseq, htrk, hstore, by simp [u], Offers.of_base ho rfl rfl rfl, setsFlags_of_marks hflags,
    halarm, hperiod, by simp [u], by simp [u],
    by simp [u], by simp [u], by simp [u], by simp [SameQueue, u]⟩

/-- Settles O18: the arrival is that of the front head. -/
theorem loadOnOpensBite : Obligations.LoadOnOpensBite := by
  intro s now force m h hd hs hm hfirst
  obtain ⟨t, hexec, hseq, htrk, hstore, hsens, ho, hflags, halarm, hperiod, hrest⟩ :=
    execForceSample_opens (now := now) h hd hs
  rw [arrival_of_head hm hfirst] at hseq htrk hstore ho hflags halarm
  exact ⟨t, hexec, by rw [hseq], by rw [hseq]; rfl, htrk, hstore, hsens, ho, hflags.congr (by simp), ⟨halarm, hperiod⟩, hrest⟩

theorem removeFirstHead_of_none {l : List Marker} (h : frontHead l = none) : removeFirstHead l = l :=
  List.eraseP_of_forall_not (by simpa [frontHead] using h)

/-- Settles O19: the arrival is that of no head. -/
theorem unannouncedLoadOn : Obligations.UnannouncedLoadOn := by
  intro s now force h hd hs hm hfirst
  obtain ⟨t, hexec, hseq, htrk, hstore, hsens, ho, hflags, halarm, hperiod, hrest⟩ := execForceSample_opens (now := now) h hd hs
  rw [arrival_of_none hm hfirst] at hseq htrk hstore ho hflags halarm
  refine ⟨t, hexec, by rw [hseq], by rw [hseq]; rfl, ?_, hstore, hsens, ho, hflags.congr (by simp [findRecord]), halarm,
    hperiod, hrest⟩
  rw [htrk]
  simp [removeFirstHead_of_none hm]

section Binding

variable {tag : Tag}

theorem nameTail_of_named {l : List Marker} (h : ∀ x ∈ l, x.kind = .tail → x.tag ≠ 0) : nameTail tag l = l := by
  induction l with
  | nil => rfl
  | cons m rest ih =>
    rw [nameTail, if_neg fun hm => h m (by simp) hm.1 hm.2, ih fun x hx => h x (by simp [hx])]

theorem nameTail_append {ahead behind : List Marker} {m : Marker} (h : ∀ x ∈ ahead, x.kind = .tail → x.tag ≠ 0)
    (hk : m.kind = .tail) (ht : m.tag = 0) :
    nameTail tag (ahead ++ m :: behind) = ahead ++ { m with tag := tag } :: behind := by
  induction ahead with
  | nil => exact if_pos ⟨hk, ht⟩
  | cons x rest ih =>
    rw [List.cons_append, nameTail, if_neg fun hm => h x (by simp) hm.1 hm.2, ih fun y hy => h y (by simp [hy])]
    rfl

theorem enterRecord_of_unbound {table : List Record} (h : ∀ r ∈ table, r.tag ≠ tag) : enterRecord tag table = table := by
  rw [enterRecord, List.map_congr_left fun r hr => if_neg (h r hr), List.map_id']

theorem enterRecord_append {older newer : List Record} {r : Record} (hr : r.tag = tag) (ho : ∀ x ∈ older, x.tag ≠ tag)
    (hn : ∀ x ∈ newer, x.tag ≠ tag) :
    enterRecord tag (older ++ r :: newer) = older ++ { r with state := .entered } :: newer := by
  have ho' := enterRecord_of_unbound ho
  have hn' := enterRecord_of_unbound hn
  unfold enterRecord at ho' hn' ⊢
  rw [List.map_append, List.map_cons, ho', hn', if_pos hr]

end Binding

/-- Settles O20: the arrival is bound to the oldest unbound record, which has its own tag in the table. -/
theorem firstStationBindsOldest : Obligations.FirstStationBindsOldest := by
  refine ⟨fun _ _ => nameTail_of_named, fun _ _ _ _ => nameTail_append, fun _ _ => enterRecord_of_unbound,
    fun _ _ _ _ => enterRecord_append, ?_⟩
  intro s now force r h hd hs hfirst hm hr h0
  obtain ⟨t, hexec, hseq, htrk, hstore, hsens, ho, hflags, halarm, hperiod, hrest⟩ := execForceSample_opens (now := now) h hd hs
  rw [arrival_bound hfirst hm hr] at hseq htrk hstore ho hflags halarm
  have hfound : (findRecord s.store.table r.tag).isNone = false := by
    have hmem := List.mem_of_find?_eq_some hr
    simp only [findRecord, h0, if_false, Option.isNone_eq_false_iff, List.find?_isSome]
    exact ⟨r, hmem, by simp⟩
  refine ⟨t, hexec, by rw [hseq], ?_, htrk, by rw [hstore, if_neg h0], hsens, ho, hflags.congr ?_, ⟨halarm, hperiod⟩, hrest⟩
  · rw [hseq, biteOf, hfound]
    rfl
  · simp [hfound, frontHead, Bool.and_assoc]

end LoadOn

section LoadOff

variable {s : State} {now : Instant} {force : Nat} {tag : Tag}

theorem removeTail_append {ahead behind : List Marker} {m : Marker} (hk : m.kind = .tail) (ht : m.tag = tag)
    (h : ∀ x ∈ ahead, x.kind = .tail → x.tag ≠ tag) : removeTail tag (ahead ++ m :: behind) = ahead ++ behind := by
  have hany : ((ahead ++ m :: behind).any fun m => m.kind == .tail && m.tag == tag) = true := by simp [hk, ht]
  rw [removeTail, if_pos hany, List.eraseP_append_right _ (by simpa using h)]
  simp [hk, ht]

theorem removeTail_append_other {ahead behind : List Marker} {m : Marker} (hk : m.kind = .tail)
    (h : ∀ x ∈ ahead, x.kind ≠ .tail) (ht : ∀ x ∈ ahead ++ m :: behind, x.kind = .tail → x.tag ≠ tag) :
    removeTail tag (ahead ++ m :: behind) = ahead ++ behind := by
  have hany : ((ahead ++ m :: behind).any fun m => m.kind == .tail && m.tag == tag) = false := by
    rw [List.any_eq_false]
    simpa using ht
  rw [removeTail, if_neg (by simp [hany]), List.eraseP_append_right _ (by simpa using h)]
  simp [hk]

theorem removeTail_of_none {l : List Marker} (h : ∀ x ∈ l, x.kind ≠ .tail) : removeTail tag l = l := by
  have hany : (l.any fun m => m.kind == .tail && m.tag == tag) = false := by
    rw [List.any_eq_false]
    intro x hx
    simp [h x hx]
  rw [removeTail, if_neg (by simp [hany]), List.eraseP_of_forall_not (by simpa using h)]

theorem loadOff_of_biting {b : Bite} (event : Instant) (hs : s.seq.stand.biting = true) (hb : s.seq.bite = some b) :
    loadOff event s = closeBite event b s := by
  unfold loadOff
  rw [hb]
  cases h : s.seq.stand <;> simp_all [StandState.biting]

/-- Settles O21: the sample's instant and detector stand, and the bite is closed. -/
theorem loadOffEndsBite : Obligations.LoadOffEndsBite := by
  refine ⟨fun _ _ _ _ => removeTail_append, fun _ _ _ _ => removeTail_append_other, fun _ _ => removeTail_of_none, ?_⟩
  intro s now force b h hs hb late
  let u := (s.setClock now).setSens { s.sens with forceAt := now, loaded := false, run := none }
  obtain ⟨hseq, htrk, hstore, hlp, ho, hflags, halarm, hperiod⟩ := closeBite_spec (runFirst s now) b u
  have hstand : (closeBite (runFirst s now) b u).seq.stand ≠ .hold := by
    rw [hseq]
    dsimp only
    split <;> nofun
  have hexec : exec (.forceSample now force) s = .next (closeBite (runFirst s now) b u) := by
    rw [← leaveHoldIfReady_stand hstand, ← loadOff_of_biting (s := u) _ hs hb]
    exact execForceSample_loadOff now h
  refine ⟨_, hexec, hseq, htrk, hstore, by simp [u], ?_, Offers.of_base ho rfl rfl rfl, hflags, ⟨halarm, hperiod⟩,
    by simp [u], by simp [u], by simp [u],
    by simp [u], by simp [SameQueue, u]⟩
  rw [hlp, lowerLooper_lp, lowerLooper_lp]
  rfl

/-- R21: a load-off in EMPTY, AWAITING or HOLD ends no bite. -/
theorem loadOff_of_not_biting (event : Instant) (hs : s.seq.stand.biting = false) : loadOff event s = s := by
  unfold loadOff
  cases h : s.seq.stand <;> simp_all [StandState.biting]

/-- R11: a load-on while the stand bites, or in HOLD, opens no bite. -/
theorem loadOn_of_not_waiting (event : Instant) (p : Bool) (h : s.seq.stand ≠ .empty) (h' : s.seq.stand ≠ .awaiting) :
    loadOn event p s = s := by
  cases hs : s.seq.stand <;> simp_all [loadOn]

end LoadOff

section WithoutBite

variable {s : State} {now : Instant} {force : Nat}

theorem execForceSample_ignoredOff (h : DecidesLoadOff s force) (hs : s.seq.stand.biting = false) :
    exec (.forceSample now force) s = .next (leaveHoldIfReady
      ((s.setClock now).setSens { s.sens with forceAt := now, loaded := false, run := none })) := by
  let u := (s.setClock now).setSens { s.sens with forceAt := now, loaded := false, run := none }
  exact (execForceSample_loadOff now h).trans
    (congrArg _ (congrArg leaveHoldIfReady (loadOff_of_not_biting (s := u) _ hs)))

/-- R124, R125: the waiting drill discards the decided load-on. -/
theorem execForceSample_discard (h : DecidesLoadOn s force) (hd : s.sens.drill = some .waiting) :
    exec (.forceSample now force) s = .next (setSticky .drillFired (catchUpFlaw
      ((s.setClock now).setSens
        { s.sens with forceAt := now, loaded := false, run := none, drill := some .blocking }))) := by
  obtain ⟨⟨hout, hs, hfresh, hblock⟩, hl, hf, hn⟩ := h
  have hrun : samplesNeeded (arrived now s).sens.speed ≤ (extendRun (arrived now s).sens.run (arrived now s).clock).length := by
    rw [extendRun_eq]
    exact hn
  rw [execForceSample_fresh now force hout hs hfresh, evaluateForce_far (s := arrived now s) hblock hf, farSample, if_pos hrun,
    if_neg (by simpa [arrived] using hl), decideLoadOn, if_pos (by simpa [arrived] using hd)]
  rfl

/-- Settles O22: the events that meet no bite, and the one that the drill discards. -/
theorem loadEventsWithoutBite : Obligations.LoadEventsWithoutBite := by
  refine ⟨fun s now force => ⟨fun h hd hs => ?_, fun h hs => ?_, fun h hs hq => ?_⟩, fun s now force h hd => ?_⟩
  · let u := (s.setClock now).setSens { s.sens with forceAt := now, loaded := true, run := none }
    refine (execForceSample_loadOn now h hd).trans (congrArg _ (loadOn_of_not_waiting (s := u) _ _ ?_ ?_)) <;>
      rcases hs with hs | hs | hs | hs <;> simp [u, hs]
  · rw [execForceSample_ignoredOff h (by rcases hs with hs | hs | ⟨hs, -⟩ <;> simp [hs, StandState.biting])]
    refine congrArg _ (if_neg ?_)
    rintro ⟨hh, hq, -⟩
    rcases hs with hs | hs | ⟨-, hs⟩
    · exact absurd (hh.symm.trans hs) nofun
    · exact absurd (hh.symm.trans hs) nofun
    · exact Bool.false_ne_true (hs.symm.trans hq)
  · rw [execForceSample_ignoredOff h (by simp [hs, StandState.biting]), leaveHoldIfReady, if_pos ⟨hs, hq, rfl⟩, holdExit_eq]
    rfl
  · let u := (s.setClock now).setSens { s.sens with forceAt := now, loaded := false, run := none, drill := some .blocking }
    have hflaw : u.flawSent = flawSentBy s now := flawSent_eq s now
    refine ⟨_, execForceSample_discard h hd, by simp, ?_, by simp [KeepsReports], by simp, by simp, by simp, by simp, by simp,
      by simp, by simp, ?_, by simp, by simp, by simp [SameQueue]⟩
    · refine setsFlags_of_marks (n := s.txq.nextOrder) fun f => ?_
      by_cases hf : f = .drillFired
      · simp [hf]
      · simp [hf, catchUpFlaw_stickyMark _ hf]
    · simp [State.flawStillArmed, ← hflaw, u]

end WithoutBite

section HotMetal

variable {s : State} {now : Instant} {high : Bool}

theorem execHotMetalReading_eq (now : Instant) (high : Bool) (hout : OutOfReset s) (hfirst : s.atFirst = true) :
    exec (.hotMetalReading now high) s = .next (readHotMetal high (s.setClock now)) :=
  congrArg _ (if_pos (Bool.and_eq_true_iff.mpr ⟨(sampling_iff _).mpr hout, hfirst⟩))

theorem readHotMetal_same (h : s.sens.hotLevel = some high) :
    readHotMetal high s = s.setSens { s.sens with hotRun := none } := if_pos h

theorem readHotMetal_differs (h : s.sens.hotLevel ≠ some high) : readHotMetal high s =
    if 9 ≤ (extendHotRun s.sens.hotRun high s.clock).count then
      if s.sens.hotLevel.isSome then hotMetalEdge high (s.setSens { s.sens with hotLevel := some high, hotRun := none })
      else s.setSens { s.sens with hotLevel := some high, hotRun := none }
    else s.setSens { s.sens with hotRun := some (extendHotRun s.sens.hotRun high s.clock) } := if_neg h

theorem extendHotRun_start {r : Option HotRun} (h : ∀ x, r = some x → x.level ≠ high) (at_ : Instant) :
    extendHotRun r high at_ = { level := high, count := 1, first := at_ } := by
  cases r with
  | none => rfl
  | some x => exact if_neg (h x rfl)

theorem extendHotRun_longer {r : HotRun} (h : r.level = high) (at_ : Instant) :
    extendHotRun (some r) high at_ = { r with count := r.count + 1 } := if_pos h

/-- R119, R120: the ninth agreeing reading, where a level stood before, is an edge. -/
theorem readHotMetal_edge {r : HotRun} (hr : s.sens.hotRun = some r) (hl : s.sens.hotLevel = some (!high))
    (hlevel : r.level = high) (hc : 8 ≤ r.count) : readHotMetal high s =
      hotMetalEdge high (s.setSens { s.sens with hotLevel := some high, hotRun := none }) := by
  rw [readHotMetal_differs (by simp [hl]), hr, extendHotRun_longer hlevel, if_pos (by simpa using hc), if_pos (by simp [hl])]

/-- R119: HOT_METAL_EDGE is that reading (log entry 16). -/
theorem execHotMetalEdge_eq {r : HotRun} (now : Instant) (hout : OutOfReset s) (hfirst : s.atFirst = true)
    (hr : s.sens.hotRun = some r) (hl : s.sens.hotLevel = some (!high)) (hlevel : r.level = high) (hc : 8 ≤ r.count) :
    exec (.hotMetalEdge now) s = .next (hotMetalEdge high
      ((s.setClock now).setSens { s.sens with hotLevel := some high, hotRun := none })) := by
  have hdue : edgeDue (s.setClock now) = some high := by
    simp [edgeDue, hl, hr, hlevel, hc]
  refine (congrArg _ ((if_pos ?_).trans ?_)).trans
    (congrArg _ (readHotMetal_edge (s := s.setClock now) hr hl hlevel hc))
  · exact Bool.and_eq_true_iff.mpr ⟨(sampling_iff _).mpr hout, hfirst⟩
  · rw [hdue]

/-- Settles O24, by the level and the run. -/
theorem hotMetalIsDebounced : Obligations.HotMetalIsDebounced := by
  intro s now high hout hfirst
  refine ⟨fun hl => ?_, fun hl hr => ?_, fun r hr hl hlevel hc => ?_, fun r hr hl hlevel hc => ?_, fun r hr hl hlevel hc => ?_⟩ <;>
    rw [execHotMetalReading_eq now high hout hfirst]
  · rw [readHotMetal_same (s := s.setClock now) hl]
    rfl
  · rw [readHotMetal_differs (s := s.setClock now) hl, extendHotRun_start (r := (s.setClock now).sens.hotRun) hr, if_neg (by simp)]
    rfl
  · rw [readHotMetal_differs (s := s.setClock now) hl, setClock_sens, hr, extendHotRun_longer hlevel, if_neg (by simp; omega)]
  · rw [readHotMetal_differs (s := s.setClock now) (by simp [hl]), setClock_sens, hr, extendHotRun_longer hlevel,
      if_pos (by simpa using hc), if_neg (by simp [hl])]
  · rw [readHotMetal_edge (s := s.setClock now) hr hl hlevel hc]
    exact ⟨_, rfl, execHotMetalEdge_eq now hout hfirst hr hl hlevel hc, by simp, by simp⟩

/-- R39, R40: at position 1 every marker moves by the entry speed. -/
theorem markerRate_first (hfirst : s.atFirst = true) (kind : MarkerKind) (tag : Tag) :
    markerRate s kind tag = entrySpeed s (s.lookup tag).values := by
  cases kind <;> simp [markerRate, hfirst]

/-- R36: a rising edge takes the tag of the oldest unbound record, or 0. -/
theorem risingEdge_eq (s : State) : risingEdge s =
    createMarker .head (((oldestUnbound s.store.table s.trk.markers).map Record.tag).getD 0) s.ldr.image.dEntry 2000
      (s.setTrk { s.trk with entryTag := ((oldestUnbound s.store.table s.trk.markers).map Record.tag).getD 0 }) := by
  unfold risingEdge
  cases oldestUnbound s.store.table s.trk.markers <;> rfl

/-- Settles O25: the edge makes its marker where the stand tracks. -/
theorem hotMetalEdgeMakesMarker : Obligations.HotMetalEdgeMakesMarker := by
  intro s now rising r hout hfirst hl hr hlevel hc tag kind travel marker
  have hexec := execHotMetalEdge_eq now hout hfirst hr hl hlevel hc
  let u := (s.setClock now).setSens { s.sens with hotLevel := some rising, hotRun := none }
  let v := u.setTrk { u.trk with entryTag := tag }
  have hedge (htracks : s.seq.stand.tracks = true) : hotMetalEdge rising u = createMarker kind tag s.ldr.image.dEntry 2000 v := by
    rw [hotMetalEdge, if_pos (show u.seq.stand.tracks = true from htracks)]
    cases rising with
    | false => rfl
    | true => exact risingEdge_eq u
  have hplaced : placedMarker v kind tag s.ldr.image.dEntry 2000 = marker := by
    have hrate : markerRate v kind tag = entrySpeed s (s.lookup tag).values := markerRate_first (s := v) hfirst kind tag
    simp [placedMarker, hrate, marker, travel]
  refine ⟨hotMetalEdge rising u, hexec, by simp [u], fun htracks hlen => ?_, fun htracks hlen => ?_, fun htracks => ?_, by simp [u],
    by simp [u], by simp [u], by simp [u], by simp [u], by simp [u], by simp [u], by simp [u], by simp [u], by simp [SameQueue, u]⟩
  · rw [hedge htracks, createMarker, if_neg (by simpa [v, u] using hlen), hplaced]
    exact ⟨rfl, rfl⟩
  · rw [hedge htracks, createMarker, if_pos (by simpa [v, u] using hlen)]
    refine ⟨by simp [v, u], ?_, by simp [KeepsReports, v, u]⟩
    exact setsFlags_setSticky .trackFull v
  · have e : hotMetalEdge rising u = u := if_neg (by simp [u, htracks])
    rw [e]
    exact ⟨rfl, rfl⟩

end HotMetal

end Sys2Proof.Machine
end

section
/-! PROOFS. The tracking expiry (R41 to R49): the reports of an expiry on a configured station, and the load events that its
crossings predict. O26 and O28 to O30 are assembled from these. -/

namespace Sys2Proof.Machine

section Reports

variable {s : State} {now : Instant}

/-- The reports of an expiry, before a load event is predicted. -/
def reported (s : State) : State := leadTail (openWindows (dropMissed (dropOverdue (advanceAll s))))

@[simp] theorem reported_frame (s : State) :
    (reported s).pending = s.pending ∧ (reported s).clock = s.clock ∧ (reported s).draws = s.draws ∧
    (reported s).ldr = s.ldr ∧ (reported s).cas = s.cas ∧ (reported s).store = s.store ∧ (reported s).sens = s.sens ∧
    (reported s).link = s.link := by
  simp [reported]

theorem execTrackingExpiry_eq (now : Instant) (h : s.seq.stand ≠ .unconfigured) :
    exec (.trackingExpiry now) s = .next (predict (reported (s.setClock now))) :=
  congrArg _ (if_neg h)

theorem predict_reported (now : Instant) (hp : PredictsNothing s) :
    predict (reported (s.setClock now)) = reported (s.setClock now) := predict_nothing (s := s.setClock now) hp

/-- What the reports of an expiry leave, in the words of the statements. -/
theorem reported_spec (now : Instant) (s : State) :
    let t := reported (s.setClock now)
    t.trk = { s.trk with markers := (leftMarkers s).map (opened s.window) } ∧
    t.seq = { s.seq with stand := standAfter s } ∧
    t.lp = (if leadsTail s then loweredLooper s s.biteTag else s.lp) ∧
    SetsFlags s t now (fun f => (f == .substituted && substitutesMarker s) || (f == .tailOverdue && tailOverdue s) ||
      (f == .strayHead && s.seq.stand.biting && !(missedHeads s).isEmpty)) ∧
    Offers (s.setClock now) t (if missesHead s then missAlarms s (missedHeads s) else []) ∧
    t.rep.lastAlarm = (if missesHead s then some .threadMiss else s.rep.lastAlarm) ∧
    t.rep.periodFrom = s.rep.periodFrom ∧
    t.hold = if missesHead s then driven (s.setClock now) else s.hold := by
  obtain ⟨htrk, hseq, hlp, hflags, hrest⟩ := reports_spec (s.setClock now)
  exact ⟨htrk, hseq, hlp, setsFlags_of_marks hflags, hrest⟩

theorem missesHead_of_none (h : missedHeads s = [] ∨ (s.seq.stand ≠ .empty ∧ s.seq.stand ≠ .awaiting)) :
    missesHead s = false := by
  rcases h with h | ⟨h, h'⟩
  · simp [missesHead, h]
  · simp [missesHead, h, h']

/-- Without a missed head that the stand waits for, the hold part, the queue, the counts and the reports stay. -/
theorem reported_keeps (now : Instant) (h : missesHead s = false) :
    let t := reported (s.setClock now)
    t.hold = s.hold ∧ t.txq = s.txq ∧ t.ec = s.ec ∧ KeepsReports s t := by
  obtain ⟨-, -, -, -, ⟨hq, he⟩, halarm, hperiod, hhold⟩ := reported_spec now s
  simp only [h, Bool.false_eq_true, if_false] at hq he halarm hhold
  exact ⟨hhold, hq, he, halarm, hperiod⟩

theorem biteTag_eq (s : State) : s.biteTag = (s.seq.bite.map Bite.tag).getD 0 := by
  unfold State.biteTag
  cases s.seq.bite <;> rfl

/-- Settles O26. -/
theorem expiryMovesMarkers : Obligations.ExpiryMovesMarkers := by
  refine ⟨fun s now h => congrArg _ (if_pos h), fun s now h hp => ?_⟩
  obtain ⟨htrk, hseq, hlp, hflags, -⟩ := reported_spec now s
  refine ⟨_, (execTrackingExpiry_eq now h).trans (congrArg _ (predict_reported now hp)), by rw [htrk], by rw [htrk]; rfl, ?_,
    by rw [hlp, biteTag_eq], hflags, fun hm => reported_keeps now (missesHead_of_none hm), by rw [hseq], by simp, by simp,
    by simp, by simp, by simp, by simp [SameQueue]⟩
  rw [hseq]
  cases hs : s.seq.stand <;> simp [standAfter, hs]

theorem missesHead_of_waiting (hs : s.seq.stand = .empty ∨ s.seq.stand = .awaiting) :
    missesHead s = !(missedHeads s).isEmpty := by
  rcases hs with hs | hs <;> simp [missesHead, hs]

theorem biting_cases (h : s.seq.stand.biting = true) :
    s.seq.stand = .threading ∨ s.seq.stand = .coupled ∨ s.seq.stand = .tailing := by
  cases hs : s.seq.stand <;> simp_all [StandState.biting]

theorem coupled_of_leadsTail (h : leadsTail s = true) : s.seq.stand = .coupled := by
  simp only [leadsTail, Bool.and_eq_true, beq_iff_eq] at h
  exact h.1.1

/-- R17: while the stand bites only the tail lead changes its state. -/
theorem standAfter_of_biting (hs : s.seq.stand.biting = true) :
    standAfter s = if leadsTail s then .tailing else s.seq.stand := by
  rcases biting_cases hs with h | h | h
  · have hl : leadsTail s = false := by simp [leadsTail, h]
    simp [standAfter, h, hl]
  · simp [standAfter, h]
  · simp [standAfter, h]

/-- Settles O28: where the stand waits, and where it bites. -/
theorem missedHeadHoldsTrain : Obligations.MissedHeadHoldsTrain := by
  intro s now m rest hp hm
  obtain ⟨htrk, hseq, hlp, hflags, ho, halarm, hperiod, hhold⟩ := reported_spec now s
  refine ⟨fun hs => ?_, fun b hb hs => ?_⟩
  · have hmiss : missesHead s = true := by simp [missesHead_of_waiting hs, hm]
    have hu : s.seq.stand ≠ .unconfigured := by rcases hs with hs | hs <;> simp [hs]
    have hlead : leadsTail s = false := by
      rw [← Bool.not_eq_true]
      intro hl
      rcases hs with hs | hs <;> simp [hs] at hl
    have hbiting : s.seq.stand.biting = false := by rcases hs with hs | hs <;> simp [hs, StandState.biting]
    simp only [hmiss, hlead, hbiting, if_true, Bool.false_eq_true, if_false, Bool.and_false, Bool.false_and,
      Bool.or_false] at ho halarm hlp hhold hflags
    refine ⟨_, (execTrackingExpiry_eq now hu).trans (congrArg _ (predict_reported now hp)), ?_, ?_, ?_, ?_, ?_, ?_, hm ▸ ho,
      halarm, hperiod, hlp, ?_, hflags⟩
    iterate 5 rw [hhold]; rfl
    · rw [hhold]
      rfl
    · rw [hseq]
      rcases hs with hs | hs <;> simp [standAfter, hs, hm]
  · have hu : s.seq.stand ≠ .unconfigured := by rcases biting_cases hs with hs | hs | hs <;> simp [hs]
    have hnone : missesHead s = false := by rcases biting_cases hs with hs | hs | hs <;> simp [missesHead, hs]
    obtain ⟨khold, ktxq, kec, krep⟩ := reported_keeps now hnone
    refine ⟨_, (execTrackingExpiry_eq now hu).trans (congrArg _ (predict_reported now hp)), khold, ktxq, kec, krep, ?_, ?_, ?_⟩
    · rw [hseq, standAfter_of_biting hs]
    · rw [hlp, biteTag_eq, hb]
      rfl
    · refine hflags.congr fun f => ?_
      simp [hs, hm, Bool.or_assoc, Bool.or_comm]

theorem execTrackingExpiry_quiet (now : Instant) (h : s.seq.stand ≠ .unconfigured) (hp : PredictsNothing s) :
    exec (.trackingExpiry now) s = .next (reported (s.setClock now)) :=
  (execTrackingExpiry_eq now h).trans (congrArg _ (predict_reported now hp))

theorem nearHead_of_some {m : Marker} (hm : (leftMarkers s).find? (fun x => x.kind == .head) = some m) :
    nearHead s = decide (m.distance ≤ s.window) := by simp [nearHead, hm]

theorem nearHead_of_none (hm : (leftMarkers s).find? (fun x => x.kind == .head) = none) : nearHead s = false := by
  simp [nearHead, hm]

/-- R17, R47: the tail lead of a COUPLED stand before position N, by the first tail left of the bite's tag. -/
theorem leadsTail_of_tail {b : Bite} {m : Marker} (hs : s.seq.stand = .coupled) (hb : s.seq.bite = some b)
    (hm : (leftMarkers s).find? (fun x => x.kind == .tail && x.tag == b.tag) = some m) :
    leadsTail s = (!s.atLast && decide (m.distance ≤ ((s.lookup b.tag).values.lLow : Int) * 1000)) := by
  unfold leadsTail
  rw [hs, hb, Option.any_some, hm]
  rfl

theorem leadsTail_of_no_tail {b : Bite} (hb : s.seq.bite = some b)
    (hm : (leftMarkers s).find? (fun x => x.kind == .tail && x.tag == b.tag) = none) : leadsTail s = false := by
  unfold leadsTail
  rw [hb, Option.any_some, hm]
  simp

theorem leadsTail_of_last (h : s.atLast = true ∨ s.seq.bite = none) : leadsTail s = false := by
  rcases h with h | h <;> simp [leadsTail, h]

/-- Settles O29. -/
theorem windowAndTailLead : Obligations.WindowAndTailLead := by
  refine ⟨fun s now hp => ⟨fun hs => ?_, fun hs => ?_⟩, fun s now hp hs => ?_, fun s now hp hs => ?_⟩
  · obtain ⟨-, hseq, hlp, -⟩ := reported_spec now s
    have hlead : leadsTail s = false := by simp [leadsTail, hs]
    refine ⟨_, execTrackingExpiry_quiet now (by simp [hs]) hp, by simpa [hlead] using hlp, fun m hm => ?_, fun hm => ?_⟩
    · rw [hseq]
      simp [standAfter, hs, nearHead_of_some hm]
    · rw [hseq, show standAfter s = s.seq.stand by simp [standAfter, hs, nearHead_of_none hm]]
  · obtain ⟨-, hseq, hlp, -⟩ := reported_spec now s
    have hlead : leadsTail s = false := by simp [leadsTail, hs]
    refine ⟨_, execTrackingExpiry_quiet now (by simp [hs]) hp, by simpa [hlead] using hlp, fun hmiss => ?_,
      fun m hmiss hm => ?_, fun hmiss hm => ?_⟩
    · rw [hseq, show standAfter s = s.seq.stand by simp [standAfter, hs, hmiss]]
    · rw [hseq]
      simp [standAfter, hs, hmiss, nearHead_of_some hm]
    · rw [hseq]
      simp [standAfter, hs, hmiss, nearHead_of_none hm]
  · obtain ⟨-, hseq, hlp, -⟩ := reported_spec now s
    have hstand : standAfter s = if leadsTail s then .tailing else .coupled := by simp [standAfter, hs]
    have stays (hl : leadsTail s = false) :
        (reported (s.setClock now)).seq = s.seq ∧ (reported (s.setClock now)).lp = s.lp := by
      rw [hseq, hlp, hstand, hl, ← hs]
      exact ⟨rfl, rfl⟩
    obtain ⟨khold, ktxq, kec, krep⟩ :=
      reported_keeps (s := s) now (missesHead_of_none (.inr ⟨by simp [hs], by simp [hs]⟩))
    refine ⟨_, execTrackingExpiry_quiet now (by simp [hs]) hp, fun b m hb hm => ⟨fun hlast hd => ?_, fun hd => ?_⟩,
      fun b hb hm => stays (leadsTail_of_no_tail hb hm), fun h => stays (leadsTail_of_last h), ktxq, kec, khold, krep⟩
    · have hl : leadsTail s = true := by simp [leadsTail_of_tail hs hb hm, hlast, hd]
      rw [hseq, hlp, hstand, hl, biteTag_eq, hb]
      exact ⟨rfl, rfl⟩
    · exact stays (by simp [leadsTail_of_tail hs hb hm, hd])
  · obtain ⟨-, hseq, hlp, -⟩ := reported_spec now s
    have hlead : leadsTail s = false := by rcases hs with hs | hs | hs <;> simp [leadsTail, hs]
    have hstand : standAfter s = s.seq.stand := by rcases hs with hs | hs | hs <;> simp [standAfter, hs]
    have hu : s.seq.stand ≠ .unconfigured := by rcases hs with hs | hs | hs <;> simp [hs]
    obtain ⟨khold, ktxq, kec, krep⟩ := reported_keeps now (s := s)
      (missesHead_of_none (.inr (by rcases hs with hs | hs | hs <;> simp [hs])))
    exact ⟨_, execTrackingExpiry_quiet now hu hp, by rw [hseq, hstand], by simpa [hlead] using hlp, ktxq, kec, khold, krep⟩

end Reports

section Crossings

variable {s : State} {now : Instant} {m : Marker}

theorem windowUm_pos (code : Nat) : 0 < windowUm code := by
  unfold windowUm
  split <;> decide

/-- R6, R45, R49: a head that crosses is within the window, so the stand is AWAITING by then. -/
theorem standAfter_of_headCrosses (h : HeadCrosses s m) : standAfter s = .awaiting := by
  obtain ⟨hs, hm, hd⟩ := h
  have hw : 0 < s.window := windowUm_pos _
  have hnear : nearHead s = true := by
    rw [nearHead_of_some hm]
    exact decide_eq_true (by omega)
  rcases hs with hs | hs <;> simp [standAfter, hs, hnear]

theorem frontHead_reported (now : Instant) (s : State) : frontHead (reported (s.setClock now)).trk.markers =
    ((leftMarkers s).find? fun x => x.kind == .head).map (opened s.window) := by
  rw [(reported_spec now s).1]
  exact find_opened _ _ (fun _ => rfl) _

theorem any_tag_opened (w : Int) (l : List Marker) (tag : Tag) :
    ((l.map (opened w)).any fun x => x.tag == tag) = l.any fun x => x.tag == tag := by
  rw [List.any_map]
  rfl

/-- R36, R37: marking the windows changes no tag, so that the oldest unbound record is that of the list left. -/
theorem oldestUnbound_reported (now : Instant) (s : State) :
    oldestUnbound (reported (s.setClock now)).store.table (reported (s.setClock now)).trk.markers =
      oldestUnbound s.store.table (leftMarkers s) := by
  rw [(reported_spec now s).1]
  simp only [oldestUnbound, any_tag_opened, reported_frame, setClock_store]

/-- R49, R117: with a stale force input the crossing head is a load-on at the expiry's instant. -/
theorem execTrackingExpiry_head (now : Instant) (hf : s.sens.forceStale = true) (h : HeadCrosses s m) :
    exec (.trackingExpiry now) s = .next (openBite now true (reported (s.setClock now))) := by
  obtain ⟨-, hseq, -⟩ := reported_spec now s
  have hstand : (reported (s.setClock now)).seq.stand = .awaiting := by rw [hseq, standAfter_of_headCrosses h]
  have hcross : (reported (s.setClock now)).headCrossing = true := by
    rw [State.headCrossing, frontHead_reported, h.2.1]
    exact decide_eq_true h.2.2
  have hu : s.seq.stand ≠ .unconfigured := by rcases h.1 with hs | hs <;> simp [hs]
  rw [execTrackingExpiry_eq now hu, predict, if_pos (by simpa using hf), hstand]
  dsimp only
  rw [if_pos hcross, loadOn_of_waiting _ _ (.inr hstand)]
  simp

/-- The tag of a piece whose head crosses (R10, R49). -/
theorem arrival_reported (now : Instant) (h : HeadCrosses s m) :
    let oldest := if s.atFirst = true ∧ m.tag = 0 then oldestUnbound s.store.table (leftMarkers s) else none
    (reported (s.setClock now)).arrival =
      { tag := (oldest.map Record.tag).getD m.tag, early := false, unannounced := false, bound := oldest.isSome } := by
  intro oldest
  have hstand : (reported (s.setClock now)).seq.stand = .awaiting := by
    rw [(reported_spec now s).2.1, standAfter_of_headCrosses h]
  have hfront := (frontHead_reported now s).trans (congrArg _ h.2.1)
  have hfirst : (reported (s.setClock now)).atFirst = s.atFirst := by simp [State.atFirst, State.position]
  by_cases hc : s.atFirst = true ∧ m.tag = 0
  · simp only [oldest, hc, and_self, if_true]
    cases ho : oldestUnbound s.store.table (leftMarkers s) with
    | some r =>
      rw [arrival_bound (hfirst.trans hc.1) (fun x hx => ?_) ((oldestUnbound_reported now s).trans ho)]
      · simp [hstand]
      · obtain rfl := Option.some.inj (hfront.symm.trans hx)
        exact hc.2
    | none =>
      rw [arrival_of_head hfront fun _ => .inr ((oldestUnbound_reported now s).trans ho)]
      simp [hstand, opened, hc.2]
  · rw [arrival_of_head hfront fun hf => .inl fun ht => hc ⟨hfirst.symm.trans hf, ht⟩]
    simp only [oldest, if_neg hc]
    simp [hstand, opened]

theorem missAlarms_of_waiting (hs : s.seq.stand = .empty ∨ s.seq.stand = .awaiting) :
    (if missesHead s then missAlarms s (missedHeads s) else []) = missAlarms s (missedHeads s) := by
  rw [missesHead_of_waiting hs]
  cases missedHeads s <;> rfl

theorem Offers.trans {t u : State} {fs gs : List TxFrame} (h : Offers s t fs) (h' : Offers t u gs) (hc : t.clock = s.clock) :
    Offers s u (fs ++ gs) := by
  obtain ⟨hq, he⟩ := h
  have hclock : (fs.foldl (fun u f => offer f u) s).clock = s.clock := by
    clear hq he hc
    induction fs generalizing s with
    | nil => rfl
    | cons f fs ih => simpa using ih (s := offer f s)
  obtain ⟨e, e'⟩ := offers_congr gs hq he (hc.trans hclock.symm)
  exact ⟨by rw [h'.1, e, List.foldl_append], by rw [h'.2, e', List.foldl_append]⟩

/-- The bite that an arrival makes goes by the configuration and the schedules. -/
theorem biteOf_congr {t : State} (hl : t.ldr = s.ldr) (hs : t.store = s.store) (a : Arrival) (p : Bool) :
    biteOf t a p = biteOf s a p := by
  simp [biteOf, lookup_congr hl hs, hs]

/-- R49: what an expiry leaves whose crossing head is predicted to be in the bite. -/
theorem head_crossing_opens (hf : s.sens.forceStale = true) (h : HeadCrosses s m) :
    let missed := missedHeads s
    let oldest := if s.atFirst = true ∧ m.tag = 0 then oldestUnbound s.store.table (leftMarkers s) else none
    let tag := (oldest.map Record.tag).getD m.tag
    ∃ t, exec (.trackingExpiry now) s = .next t ∧
      t.seq = { stand := if s.atLast then .coupled else .threading
                bite := some (biteOf s { tag := tag, early := false, unannounced := false, bound := oldest.isSome } true) } ∧
      t.trk = (if oldest.isSome then
          { markers := nameTail tag (removeFirstHead ((leftMarkers s).map (opened s.window)))
            entryTag := if s.trk.entryTag = 0 then tag else s.trk.entryTag }
        else { s.trk with markers := removeFirstHead ((leftMarkers s).map (opened s.window)) }) ∧
      t.store = { s.store with table := if tag = 0 then s.store.table else enterRecord tag s.store.table } ∧
      Offers (s.setClock now) t (missAlarms s missed ++ [.headOn tag now]) ∧
      t.hold = (if missed = [] then s.hold else driven (s.setClock now)) ∧
      t.rep.lastAlarm = (if missed = [] then s.rep.lastAlarm else some .threadMiss) ∧
      t.rep.periodFrom = s.rep.periodFrom ∧
      SetsFlags s t now (fun f =>
        (f == .substituted && (substitutesMarker s || (findRecord s.store.table tag).isNone)) ||
        (f == .tailOverdue && tailOverdue s)) ∧
      t.sens = s.sens ∧ t.lp = s.lp ∧ t.ldr = s.ldr ∧ t.cas = s.cas ∧ t.link = s.link ∧ SameQueue s t := by
  intro missed oldest tag
  obtain ⟨htrk, hseq, hlp, hflags, ho, halarm, hperiod, hhold⟩ := reported_spec now s
  obtain ⟨oseq, otrk, ostore, oo, oflags, oalarm, operiod⟩ := openBite_spec now true (reported (s.setClock now))
  have harrival : (reported (s.setClock now)).arrival =
      { tag := tag, early := false, unannounced := false, bound := oldest.isSome } := arrival_reported now h
  rw [harrival] at oseq otrk ostore oo oflags oalarm
  have hbiting : s.seq.stand.biting = false := by rcases h.1 with hs | hs <;> simp [hs, StandState.biting]
  have hlead : leadsTail s = false := by
    rw [← Bool.not_eq_true]
    intro hl
    rcases h.1 with hs | hs <;> exact absurd (hs.symm.trans (coupled_of_leadsTail hl)) nofun
  rw [missAlarms_of_waiting h.1] at ho
  have hmiss : missesHead s = !missed.isEmpty := missesHead_of_waiting h.1
  refine ⟨_, execTrackingExpiry_head now hf h, ?_, ?_, ?_, ho.trans oo (by simp), ?_, ?_, ?_, ?_, by simp, ?_, by simp, by simp,
    by simp, by simp [SameQueue]⟩
  · rw [oseq, biteOf_congr (s := s) (by simp) (by simp)]
    simp [State.atLast, State.position]
  · rw [otrk, htrk]
  · rw [ostore]
    simp
  · simp [hhold, hmiss]
  · simp [oalarm, halarm, hmiss]
  · simp [operiod, hperiod]
  · simp only [reported_frame, setClock_clock] at oflags
    refine (hflags.trans (setsFlags_of_marks oflags)).congr fun f => ?_
    simp only [hbiting, Bool.and_false, Bool.false_and, Bool.or_false, Bool.false_or]
    cases f == .substituted <;> simp [Bool.or_assoc, Bool.or_comm, Bool.or_left_comm]
  · simp [hlp, hlead]

/-- R49: a tail that crosses while the stand is COUPLED before position N has led by then. -/
theorem leadsTail_of_tailCrosses {b : Bite} (h : TailCrosses s b m) :
    leadsTail s = (s.seq.stand == .coupled && !s.atLast) := by
  obtain ⟨-, hb, hm, hd⟩ := h
  by_cases hs : s.seq.stand = .coupled
  · rw [leadsTail_of_tail hs hb hm, hs, decide_eq_true (by omega)]
    simp
  · simp [leadsTail, hs]

theorem standAfter_of_tailCrosses {b : Bite} (h : TailCrosses s b m) : (standAfter s).biting = true ∧
    (standAfter s == .coupled && !s.atLast) = false ∧ (standAfter s == .threading) = (s.seq.stand == .threading) := by
  rw [standAfter_of_biting h.1, leadsTail_of_tailCrosses h]
  rcases biting_cases h.1 with hs | hs | hs <;> cases hl : s.atLast <;> simp [hs, StandState.biting]

/-- R49, R117: with a stale force input the crossing tail is a load-off at the expiry's instant. -/
theorem execTrackingExpiry_tail {b : Bite} (now : Instant) (hf : s.sens.forceStale = true) (h : TailCrosses s b m) :
    exec (.trackingExpiry now) s = .next (closeBite now b (reported (s.setClock now))) := by
  obtain ⟨htrk, hseq, -⟩ := reported_spec now s
  obtain ⟨hbiting, -, -⟩ := standAfter_of_tailCrosses h
  obtain ⟨hbit, hbite, htail, hcross⟩ := h
  have hb : (reported (s.setClock now)).seq.bite = some b := by rw [hseq]; exact hbite
  have hstand : (reported (s.setClock now)).seq.stand.biting = true := by rw [hseq]; exact hbiting
  have hcrosses : (reported (s.setClock now)).tailCrossing = true := by
    rw [State.tailCrossing, hb]
    dsimp only
    rw [htrk, tailOf, find_opened _ _ (fun _ => rfl), htail]
    exact decide_eq_true hcross
  have hu : s.seq.stand ≠ .unconfigured := by rcases biting_cases hbit with hs | hs | hs <;> simp [hs]
  have hoff := loadOff_of_biting (s := reported (s.setClock now)) now hstand hb
  rw [execTrackingExpiry_eq now hu, predict, if_pos (by simpa using hf)]
  rcases biting_cases hstand with hs | hs | hs <;> rw [hs] <;> dsimp only <;> rw [if_pos hcrosses] <;> simpa using hoff

theorem tail_crossing_closes {b : Bite} (hf : s.sens.forceStale = true) (h : TailCrosses s b m) :
    ∃ t, exec (.trackingExpiry now) s = .next t ∧
      t.seq = { stand := if anyWindowOpen ((leftMarkers s).map (opened s.window)) then .awaiting else .empty, bite := none } ∧
      t.trk = { s.trk with markers := removeTail b.tag ((leftMarkers s).map (opened s.window)) } ∧
      t.store = { s.store with table := retireEntered s.store.table } ∧
      t.lp = { (if s.seq.stand == .coupled && !s.atLast then loweredLooper s b.tag else s.lp) with trim := 0 } ∧
      Offers (s.setClock now) t [.tailOff b.tag now] ∧
      SetsFlags s t now (fun f => (f == .strayHead && !(missedHeads s).isEmpty) || (f == .substituted && substitutesMarker s) ||
        (f == .tailOverdue && tailOverdue s) || (f == .shortPiece && s.seq.stand == .threading)) ∧
      KeepsReports s t ∧ t.hold = s.hold ∧
      t.sens = s.sens ∧ t.ldr = s.ldr ∧ t.cas = s.cas ∧ t.link = s.link ∧ SameQueue s t := by
  obtain ⟨htrk, hseq, hlp, hflags, ho, halarm, hperiod, hhold⟩ := reported_spec now s
  obtain ⟨cseq, ctrk, cstore, clp, co, cflags, calarm, cperiod⟩ := closeBite_spec now b (reported (s.setClock now))
  obtain ⟨-, hlate, hshort⟩ := standAfter_of_tailCrosses h
  have hlate' : ((reported (s.setClock now)).seq.stand == .coupled && !(reported (s.setClock now)).atLast) = false := by
    rw [hseq]
    simpa [State.atLast, State.position] using hlate
  have hnone : missesHead s = false := by rcases biting_cases h.1 with hs | hs | hs <;> simp [missesHead, hs]
  simp only [hnone, Bool.false_eq_true, if_false] at ho halarm hhold
  have htag : s.biteTag = b.tag := by rw [biteTag_eq, h.2.1]; rfl
  refine ⟨_, execTrackingExpiry_tail now hf h, ?_, ?_, ?_, ?_, ho.trans co (by simp), ?_, ⟨?_, ?_⟩, ?_, by simp, by simp,
    by simp, by simp, by simp [SameQueue]⟩
  · rw [cseq, htrk]
  · rw [ctrk, htrk]
  · rw [cstore]
    simp
  · rw [clp, hlate', hlp, leadsTail_of_tailCrosses h, htag]
    rfl
  · have hclose : SetsFlags (reported (s.setClock now)) (closeBite now b (reported (s.setClock now))) now fun f =>
        f == .shortPiece && s.seq.stand == .threading := by
      intro f
      have hc := cflags f
      rw [hlate', hseq] at hc
      simpa [hshort] using hc
    refine (hflags.trans hclose).congr fun f => ?_
    simp [h.1, Bool.or_assoc, Bool.or_comm, Bool.or_left_comm]
  · rw [calarm, halarm]
  · rw [cperiod, hperiod]
  · simp [hhold]

/-- Settles O30: the crossing head opens its bite, the crossing tail ends it. -/
theorem crossingsPredictLoadEvents : Obligations.CrossingsPredictLoadEvents := by
  intro s now m missed shown hf
  constructor
  · intro h oldest tag _
    obtain ⟨t, hexec, hseq, htrk, hstore, ho, hhold, halarm, hperiod, hflags, hrest⟩ := head_crossing_opens (now := now) hf h
    refine ⟨t, hexec, by rw [hseq], by rw [hseq]; rfl, ?_, hstore, ho, ?_, fun hm => ?_, halarm, hperiod, hflags, hrest⟩
    · rw [htrk]
      have hoi : (if s.atFirst = true ∧ m.tag = 0 then oldestUnbound s.store.table (leftMarkers s) else none) = oldest := rfl
      rw [hoi]
      cases ho : oldest <;> rfl
    · rw [hhold]
      by_cases hm : missedHeads s = []
      · simp [hm, missed]
      · simp [hm, missed, driven]
    · rw [hhold, if_pos hm]
  · intro b h lowers
    obtain ⟨t, hexec, hseq, htrk, hstore, hlp, hrest⟩ := tail_crossing_closes (now := now) hf h
    refine ⟨t, hexec, hseq, htrk, hstore, ?_, hrest⟩
    rw [hlp]
    cases hl : s.lp.state <;> cases hc : (s.seq.stand == .coupled && !s.atLast) <;> simp [lowers, loweredLooper, hl, hc]

end Crossings

end Sys2Proof.Machine
end

section
/-! PROOFS. The looper period (R53 to R70): a ramp, then completion, timeout, or one period more. O31 to O33 are assembled from
these. -/

namespace Sys2Proof.Machine

section Ramps

variable {s : State}

theorem execLooperPeriodExpiry_eq (now : Instant) (s : State) :
    exec (.looperPeriodExpiry now) s = .next (looperPeriod (s.setClock now)) := rfl

/-- R58: the command after the ramp of a raise. -/
def State.raisedCommand (s : State) : Nat :=
  if s.sens.angleStale then s.lp.command else ramp (2 * s.ldr.image.rateUp) s.thetaRef s.lp.command

/-- R63: the command after the ramp of a lower. -/
def State.loweredCommand (s : State) : Nat :=
  if s.sens.angleStale then s.lp.command else ramp (2 * s.ldr.image.rateDown) s.ldr.image.thetaRest s.lp.command

theorem rampUp_eq (s : State) : rampUp s = s.setLp { s.lp with command := s.raisedCommand } := by
  unfold rampUp State.raisedCommand
  split <;> rfl

theorem rampDown_eq (s : State) : rampDown s = s.setLp { s.lp with command := s.loweredCommand } := by
  unfold rampDown State.loweredCommand
  split <;> rfl

theorem looperPeriod_raising {timer : Nat} {tag : Tag} (hs : s.seq.stand ≠ .unconfigured)
    (hl : s.lp.state = .raising timer tag) : looperPeriod s = raisingPeriod timer tag s := by
  simp [looperPeriod, hs, hl]

theorem looperPeriod_lowering {timer : Nat} {tag : Tag} (hs : s.seq.stand ≠ .unconfigured)
    (hl : s.lp.state = .lowering timer tag) : looperPeriod s = loweringPeriod timer tag s := by
  simp [looperPeriod, hs, hl]

/-- R58 to R60: an expiry in RAISING. -/
theorem raisingPeriod_eq (timer : Nat) (tag : Tag) (s : State) : raisingPeriod timer tag s =
    if s.armAtReference then enterTension s
    else if timedOut (timer + 1) s.ldr.image.raiseTimeout then
      stall .raise tag (s.setLp { s.lp with command := s.raisedCommand })
    else s.setLp { s.lp with state := .raising (timer + 1) tag, command := s.raisedCommand } := by
  rw [raisingPeriod, rampUp_eq]
  rfl

/-- R63 to R65: an expiry in LOWERING. -/
theorem loweringPeriod_eq (timer : Nat) (tag : Tag) (s : State) : loweringPeriod timer tag s =
    if s.armAtRest then park s
    else if timedOut (timer + 1) s.ldr.image.lowerTimeout then
      stall .lower tag (s.setLp { s.lp with command := s.loweredCommand })
    else s.setLp { s.lp with state := .lowering (timer + 1) tag, command := s.loweredCommand } := by
  rw [loweringPeriod, rampDown_eq]
  rfl

theorem timedOut_true {timer timeout : Nat} (h : timeout ≤ timer * 2) : timedOut timer timeout = true := decide_eq_true h

theorem timedOut_false {timer timeout : Nat} (h : timer * 2 < timeout) : ¬timedOut timer timeout = true := by
  simpa [timedOut] using h

theorem execRaiseTimeout_eq {timer : Nat} {tag : Tag} (now : Instant) (hs : s.seq.stand ≠ .unconfigured)
    (hl : s.lp.state = .raising timer tag) (ht : s.ldr.image.raiseTimeout ≤ (timer + 1) * 2) :
    exec (.raiseTimeout now) s = exec (.looperPeriodExpiry now) s :=
  congrArg _ (if_pos (by simp [raiseDue, hl, hs, timedOut, ht]))

theorem execLowerTimeout_eq {timer : Nat} {tag : Tag} (now : Instant) (hs : s.seq.stand ≠ .unconfigured)
    (hl : s.lp.state = .lowering timer tag) (ht : s.ldr.image.lowerTimeout ≤ (timer + 1) * 2) :
    exec (.lowerTimeout now) s = exec (.looperPeriodExpiry now) s :=
  congrArg _ (if_pos (by simp [lowerDue, hl, hs, timedOut, ht]))

theorem armAtReference_eq (s : State) : s.armAtReference =
    (!s.sens.angleStale && decide (s.measuredAngle ≤ s.thetaRef + s.ldr.image.band) &&
      decide (s.thetaRef ≤ s.measuredAngle + s.ldr.image.band)) := by
  simp [State.armAtReference, withinBand, Bool.and_assoc]

/-- Settles O31. -/
theorem raisingPeriodHolds : Obligations.RaisingPeriod := by
  intro s now timer tag hl hs ref rate angle command armed frozen tension stalled
  have hexec : exec (.looperPeriodExpiry now) s = .next (raisingPeriod timer tag (s.setClock now)) :=
    congrArg _ (looperPeriod_raising (s := s.setClock now) hs hl)
  have harm : (s.setClock now).armAtReference = armed := armAtReference_eq (s.setClock now)
  rw [raisingPeriod_eq, harm] at hexec
  have htension (h : armed = true) : exec (.looperPeriodExpiry now) s = .next tension := by
    rw [hexec, if_pos h]
    rfl
  refine ⟨htension, fun h ht => ?_, fun h ht => ?_, fun h ht => ?_⟩
  · rw [hexec, if_neg (by simp [h]), if_neg (timedOut_false (timeout := (s.setClock now).ldr.image.raiseTimeout) ht)]
    rfl
  · have hstalled : exec (.looperPeriodExpiry now) s = .next stalled := by
      rw [hexec, if_neg (by simp [h]), if_pos (timedOut_true (timeout := (s.setClock now).ldr.image.raiseTimeout) ht)]
      rfl
    exact ⟨hstalled, (execRaiseTimeout_eq now hs hl ht).trans hstalled⟩
  · exact (execRaiseTimeout_eq now hs hl ht).trans (htension h)

/-- Settles O32. -/
theorem loweringPeriodHolds : Obligations.LoweringPeriod := by
  intro s now timer tag hl hs rest rate angle command home frozen parked stalled
  have hexec : exec (.looperPeriodExpiry now) s = .next (loweringPeriod timer tag (s.setClock now)) :=
    congrArg _ (looperPeriod_lowering (s := s.setClock now) hs hl)
  have harm : (s.setClock now).armAtRest = home := rfl
  rw [loweringPeriod_eq, harm] at hexec
  have hparked (h : home = true) : exec (.looperPeriodExpiry now) s = .next parked := by
    rw [hexec, if_pos h]
    rfl
  refine ⟨hparked, fun h ht => ?_, fun h ht => ?_, fun h ht => ?_⟩
  · rw [hexec, if_neg (by simp [h]), if_neg (timedOut_false (timeout := (s.setClock now).ldr.image.lowerTimeout) ht)]
    rfl
  · have hstalled : exec (.looperPeriodExpiry now) s = .next stalled := by
      rw [hexec, if_neg (by simp [h]), if_pos (timedOut_true (timeout := (s.setClock now).ldr.image.lowerTimeout) ht)]
      rfl
    exact ⟨hstalled, (execLowerTimeout_eq now hs hl ht).trans hstalled⟩
  · exact (execLowerTimeout_eq now hs hl ht).trans (hparked h)

end Ramps

section Rest

variable {s : State}

theorem clampInt_eq_max {lo hi : Int} (h : lo ≤ hi) (x : Int) : clampInt lo hi x = max lo (min hi x) := by
  unfold clampInt
  split_ifs <;> omega

theorem clampInt_neg_self (k : Nat) (x : Int) : clampInt (-(k : Int)) k x = max (-(k : Int)) (min k x) :=
  clampInt_eq_max (by omega) x

/-- R70, R82, R177: the outputs of a configured station. -/
theorem outputs_configured (hs : s.seq.stand ≠ .unconfigured) :
    s.angleOutput = s.lp.command ∧ s.speedOutput = s.cas.reference ∧
      s.modeOutput = match s.lp.state with
        | .none | .parked => .park
        | .raising .. | .stalled .raise _ => .raise
        | .tension => .tension
        | .lowering .. | .stalled .lower _ => .lower := by
  unfold State.angleOutput State.speedOutput State.modeOutput
  cases h : s.seq.stand
  case unconfigured => exact absurd h hs
  all_goals
    refine ⟨rfl, rfl, ?_⟩
    cases hl : s.lp.state
    case stalled op _ => cases op <;> rfl
    all_goals rfl

theorem outputs_unconfigured (hu : s.seq.stand = .unconfigured) :
    s.modeOutput = .park ∧ s.angleOutput = 0 ∧ s.speedOutput = 0 := by
  simp [State.modeOutput, State.angleOutput, State.speedOutput, hu]

/-- Settles O33. -/
theorem tensionAndRest : Obligations.TensionAndRest := by
  constructor
  · intro s now hl hs v ref e integral trim
    have hexec : exec (.looperPeriodExpiry now) s = .next (tensionPeriod (s.setClock now)) := by
      rw [execLooperPeriodExpiry_eq]
      simp [looperPeriod, hs, hl]
    refine ⟨fun ha hh => ?_, fun h => ?_⟩
    · have hint : (s.setClock now).nextIntegral = integral := clampInt_neg_self _ _
      have htrim : (s.setClock now).nextTrim = trim := by
        rw [State.nextTrim, hint]
        exact clampInt_neg_self _ _
      rw [hexec, tensionPeriod, if_neg (by simp [ha, hh]), hint, htrim]
      rfl
    · rw [hexec, tensionPeriod, if_pos (by simpa using h)]
      rfl
  · intro s now home
    refine ⟨fun hu => ?_, fun hl => ?_, fun tag hl => ?_, fun hs hl => ?_, fun tag hs hl => ⟨fun h => ?_, fun h => ?_⟩,
      fun s => ⟨outputs_unconfigured, fun hlaw hp => outputs_unconfigured (hlaw.1 hp), outputs_configured⟩⟩
    · exact congrArg Host.Outcome.next (if_pos hu)
    · simp [OnlyClock, execLooperPeriodExpiry_eq, looperPeriod, hl, Instr.now]
    · simp [OnlyClock, execLooperPeriodExpiry_eq, looperPeriod, hl, Instr.now]
    · simp [execLooperPeriodExpiry_eq, looperPeriod, hl, hs]
    · have harm : (s.setClock now).armAtRest = false := h
      simp [OnlyClock, execLooperPeriodExpiry_eq, looperPeriod, hl, hs, harm, Instr.now]
    · have harm : (s.setClock now).armAtRest = true := h
      simp [execLooperPeriodExpiry_eq, looperPeriod, hl, hs, harm, park, State.trimAtRest]
      rfl

end Rest

end Sys2Proof.Machine
end

section
/-! PROOFS. The speed period (R75 to R85): the views age, the factor is composed, the boost advances, the reference is worked.
O35 to O37 are assembled from these. -/

namespace Sys2Proof.Machine

section Steps

variable {s : State} {now : Instant}

theorem setsFlags_setStickyIf (c : Bool) (f : StickyFlag) (s : State) :
    SetsFlags s (setStickyIf c f s) s.clock fun g => g == f && c :=
  setsFlags_of_marks (n := s.txq.nextOrder) fun g => by rw [setStickyIf_stickyMark, Bool.and_comm]

/-- R85: a view is stale from 16,000 µs on, and keeps its fields. -/
theorem aged_eq (v : View) (now : Instant) : v.aged now =
    { v with stale := v.stale || (v.capture.map fun x => decide (16000 ≤ elapsed now x)).getD false } := by
  unfold View.aged
  cases hc : v.capture with
  | none => cases v; simp_all
  | some x =>
    by_cases h : (!v.stale && decide (16000 ≤ elapsed now x)) = true
    · cases v
      simp_all
    · cases v
      simp_all
      grind

theorem workFactor_spec (s : State) :
    (workFactor s).cas = { s.cas with factor := s.clampedFactor, limited := s.limitedNow } ∧
    SetsFlags s (workFactor s) s.clock (fun f => f == .limitedSeen && s.limitedNow) ∧ KeepsReports s (workFactor s) := by
  refine ⟨by simp [workFactor], ?_, by simp [KeepsReports, workFactor]⟩
  exact setsFlags_setStickyIf s.limitedNow .limitedSeen (s.setCas { s.cas with factor := s.clampedFactor, limited := s.limitedNow })

theorem bne_eq_decide (a b : Int) : (a != b) = decide (a ≠ b) := by
  by_cases h : a = b <;> simp [h]

/-- R79: the reference asked for, before its clamp. -/
def State.asked (s : State) (base : Nat) : Int := rawReference base (s.cas.factor + s.boostPpm)

/-- R79: the reference asked for, brought into range. -/
def State.workedReference (s : State) (base : Nat) : Int := clampInt s.ldr.image.vMin s.ldr.image.vMax (s.asked base)

theorem workReference_spec (base : Nat) (s : State) :
    (workReference base s).cas = { s.cas with
      reference := (s.workedReference base).toNat, clamped := s.workedReference base != s.asked base } ∧
    SetsFlags s (workReference base s) s.clock (fun f => f == .clampedSeen && s.workedReference base != s.asked base) ∧
    KeepsReports s (workReference base s) := by
  refine ⟨?_, ?_, by simp [KeepsReports, workReference]⟩
  · unfold workReference
    simp
    exact ⟨rfl, rfl⟩
  · exact setsFlags_setStickyIf (s.workedReference base != s.asked base) .clampedSeen (s.setCas
      { s.cas with reference := (s.workedReference base).toNat, clamped := s.workedReference base != s.asked base })

theorem factorStep_biting (h : s.seq.stand.biting = true) : factorStep s = workFactor s := by
  rcases biting_cases h with hs | hs | hs <;> simp [factorStep, hs]

theorem referenceStep_biting (h : s.seq.stand.biting = true) : referenceStep s = workReference s.biteSchedule.base s := by
  rcases biting_cases h with hs | hs | hs <;> simp [referenceStep, hs]

theorem impactStep_some {b : Bite} (h : s.seq.bite = some b) : impactStep s =
    s.setSeq { s.seq with bite := some { b with impact := b.impact.bind fun i => i.advance s.impactTime } } := by
  unfold impactStep
  rw [h]

theorem impactStep_none (h : s.seq.bite = none) : impactStep s = s := by
  unfold impactStep
  rw [h]

/-- R4: the schedule of the bite is that of its tag, by the configuration and the schedules. -/
theorem biteSchedule_of {t : State} {b : Bite} (hl : t.ldr = s.ldr) (hs : t.store = s.store) (hb : t.seq.bite = some b) :
    t.biteSchedule = s.lookup b.tag := by
  have htag : t.biteTag = b.tag := by rw [biteTag_eq, hb]; rfl
  rw [State.biteSchedule, htag, lookup_congr hl hs]

theorem takesDownstream_of {b : Bite} (hb : s.seq.bite = some b) : s.takesDownstream =
    ((s.seq.stand == .coupled || s.seq.stand == .tailing) && !s.atLast && b.partner == some s.cas.downView.tag) := by
  unfold State.takesDownstream
  rw [hb]
  cases s.seq.stand <;> simp

end Steps

section Biting

/-- Settles O35. -/
theorem speedPeriodWhileBiting : Obligations.SpeedPeriodWhileBiting := by
  intro s now b hs hb taken d raw c limited time impact imp base asked ref aged
  -- the factor is worked with the views as they have aged, which keep their fields
  let s1 := ageViews (s.setClock now)
  have hviews : s1.cas = { s.cas with upView := aged s.cas.upView, downView := aged s.cas.downView } := by
    simp [s1, ageViews, aged_eq, aged]
  have htaken : s1.takesDownstream = taken := by
    rw [takesDownstream_of (s := s1) (by simpa [s1] using hb), hviews]
    simp [s1, taken, aged, State.atLast, State.position]
  have hraw : s1.rawFactor = raw := by
    rw [State.rawFactor, State.downstreamTerm, htaken, hviews]
    simp [s1, raw, d, aged]
  have hc : s1.clampedFactor = c := by
    rw [State.clampedFactor, hraw]
    exact clampInt_eq_max (by decide) _
  have hlim : s1.limitedNow = limited := by
    rw [State.limitedNow, hc, hraw, htaken, hviews, bne_eq_decide]
    rfl
  obtain ⟨fcas, fflags, freports⟩ := workFactor_spec s1
  let s2 := workFactor s1
  have hb2 : s2.seq.bite = some b := by simpa [s2, s1] using hb
  have htime : s2.impactTime = time := by
    rw [State.impactTime, biteSchedule_of (s := s) (t := s2) (by simp [s2, s1]) (by simp [s2, s1]) hb2]
  -- then the impact remainder advances
  let s3 := s2.setSeq { s2.seq with bite := some { b with impact := impact } }
  have himp : impactStep s2 = s3 := by
    rw [impactStep_some hb2, htime]
    rfl
  have hbase : s3.biteSchedule = s.lookup b.tag :=
    biteSchedule_of (s := s) (t := s3) (b := { b with impact := impact }) (by simp [s3, s2, s1]) (by simp [s3, s2, s1]) rfl
  have hboost : s3.boostPpm = imp := by
    have hbite : s3.seq.bite = some { b with impact := impact } := rfl
    have htime3 : s3.impactTime = time := by rw [State.impactTime, hbase]
    rw [State.boostPpm, hbite, htime3]
    rfl
  -- and the reference is worked from the base, the factor and the boost
  have hasked : s3.asked base = asked := by
    have : s3.cas.factor = c := by simp [s3, s2, fcas, hc]
    rw [State.asked, this, hboost]
    rfl
  have href : s3.workedReference base = ref := by
    rw [State.workedReference, hasked]
    simp [s3, s2, s1, ref]
  obtain ⟨rcas, rflags, rreports⟩ := workReference_spec base s3
  rw [hasked, href, bne_eq_decide] at rcas rflags
  have hrun : exec (.speedPeriodExpiry now) s = .next (workReference base s3) := by
    have hs1 : s1.seq.stand.biting = true := by simpa [s1] using hs
    have hs3 : s3.seq.stand.biting = true := by simpa [s3, s2, s1] using hs
    calc exec (.speedPeriodExpiry now) s
        = .next (referenceStep (impactStep (factorStep s1))) := rfl
      _ = .next (workReference base s3) := by
        rw [factorStep_biting hs1, himp, referenceStep_biting hs3, hbase]
  have hflags : SetsFlags s1 s3 now fun f => f == .limitedSeen && limited := by
    rw [hlim] at fflags
    exact fflags
  have hclock : s3.clock = now := by simp [s3, s2, workFactor, s1, ageViews]
  have hcas : s3.cas = { s.cas with
      factor := c, limited := limited, upView := aged s.cas.upView, downView := aged s.cas.downView } := by
    simp [s3, s2, fcas, hc, hlim, hviews]
  rw [hclock] at rflags
  rw [hcas] at rcas
  refine ⟨_, hrun, by simp [rcas], by simp [rcas], by simp [rcas], by simp [rcas], by simp [rcas], by simp [rcas],
    by simp [rcas], by simp [workReference, s3, s2, workFactor, s1, ageViews], hflags.trans rflags, ?_, ?_⟩
  · exact ⟨rreports.1.trans freports.1, rreports.2.trans freports.2⟩
  · simp [SameQueue, workReference, s3, s2, workFactor, s1, ageViews]

end Biting

section NotBiting

variable {s : State} {now : Instant}

/-- R107: the base of the front head's record, or else of the oldest WAITING one. -/
theorem expectedBase_eq (s : State) : s.expectedBase =
    (((frontHead s.trk.markers).bind fun m => findRecord s.store.table m.tag).or
      (oldestWaiting s.store.table)).map Record.base := by
  unfold State.expectedBase
  cases (frontHead s.trk.markers).bind fun m => findRecord s.store.table m.tag <;> rfl

theorem ageViews_noBite (hb : s.seq.bite = none) : impactStep (factorStep (ageViews s)) = factorStep (ageViews s) :=
  impactStep_none (by unfold factorStep; cases (ageViews s).seq.stand <;> simp [ageViews, workFactor, hb])

theorem factorStep_waiting (h : s.seq.stand = .empty ∨ s.seq.stand = .awaiting ∨ s.seq.stand = .unconfigured) :
    factorStep s = s.setCas { s.cas with factor := 0, limited := false } := by
  rcases h with h | h | h <;> simp [factorStep, h]

theorem clampInt_natCast (lo hi x : Nat) : clampInt lo hi x = (clampNat lo hi x : Nat) := by
  unfold clampInt clampNat
  split_ifs <;> omega

/-- R79, R80: with no factor and no boost the reference is the base, brought into range. -/
theorem asked_of_noBite (hb : s.seq.bite = none) (hf : s.cas.factor = 0) (base : Nat) : s.asked base = base := by
  simp [State.asked, rawReference, State.boostPpm, hb, hf]

theorem workedReference_of_noBite (hb : s.seq.bite = none) (hf : s.cas.factor = 0) (base : Nat) :
    s.workedReference base = (clampNat s.ldr.image.vMin s.ldr.image.vMax base : Nat) := by
  rw [State.workedReference, asked_of_noBite hb hf, clampInt_natCast]

/-- A new state of the Cascade Unit alone sets no flag and keeps the reports. -/
theorem setsFlags_setCas {p : StickyFlag → Bool} (hp : ∀ f, p f = false) (x : Cascade) :
    SetsFlags s ((s.setClock now).setCas x) now p ∧ KeepsReports s ((s.setClock now).setCas x) ∧
      SameQueue s ((s.setClock now).setCas x) :=
  ⟨(setsFlags_of_rep (s := s) (t := (s.setClock now).setCas x) rfl).congr hp, ⟨rfl, rfl⟩, rfl, rfl⟩

/-- Settles O36. -/
theorem speedPeriodWithoutBite : Obligations.SpeedPeriodWithoutBite := by
  intro s now hs hb vMin vMax head waits aged
  let s1 := ageViews (s.setClock now)
  have hviews : s1.cas = { s.cas with upView := aged s.cas.upView, downView := aged s.cas.downView } := by
    simp [s1, ageViews, aged_eq, aged]
  have hrun : exec (.speedPeriodExpiry now) s = .next (referenceStep (factorStep s1)) :=
    congrArg (fun u => Host.Outcome.next (referenceStep u)) (ageViews_noBite (s := s.setClock now) hb)
  have hstand : s1.seq.stand = s.seq.stand := rfl
  cases hst : s.seq.stand with
  | threading | coupled | tailing => simp [StandState.biting, hst] at hs
  | hold =>
    have hf : factorStep s1 = s1 := by simp [factorStep, hstand, hst]
    have ht : referenceStep s1 = holdReference s1 := by simp [referenceStep, hstand, hst]
    rw [hf, ht] at hrun
    refine ⟨_, hrun, ?_⟩
    simp [holdReference, hviews, waits, hst]
    simp [s1, ageViews, vMin, vMax]
    exact setsFlags_setCas (fun f => by cases f == .clampedSeen <;> rfl) _
  | unconfigured =>
    have hf := factorStep_waiting (s := s1) (.inr (.inr hst))
    have ht : referenceStep (factorStep s1) = (factorStep s1).setCas { (factorStep s1).cas with reference := 0 } := by
      simp [hf, referenceStep, hstand, hst]
    rw [ht, hf] at hrun
    refine ⟨_, hrun, ?_⟩
    simp [hviews, waits, hst]
    simp [s1, ageViews]
    exact setsFlags_setCas (fun f => by cases f == .clampedSeen <;> rfl) _
  | empty | awaiting =>
    let s2 := s1.setCas { s1.cas with factor := 0, limited := false }
    have hf : factorStep s1 = s2 := factorStep_waiting (by simp [hstand, hst])
    have hexp : s2.expectedBase = head.map Record.base := expectedBase_eq s2
    have hb2 : s2.seq.bite = none := hb
    cases hhead : head with
    | none =>
      have ht : referenceStep s2 = holdReference s2 := by simp [referenceStep, s2, hstand, hst, hexp, hhead]
      rw [hf, ht] at hrun
      refine ⟨_, hrun, ?_⟩
      simp [holdReference, s2, hviews, waits, hst]
      simp [s1, ageViews, vMin, vMax]
      exact setsFlags_setCas (fun _ => rfl) _
    | some r =>
      have ht : referenceStep s2 = workReference r.base s2 := by simp [referenceStep, s2, hstand, hst, hexp, hhead]
      rw [hf, ht] at hrun
      obtain ⟨rcas, rflags, rreports⟩ := workReference_spec r.base s2
      rw [asked_of_noBite hb2 rfl, workedReference_of_noBite hb2 rfl] at rcas rflags
      rw [bne_eq_decide] at rcas rflags
      have hcas : s2.cas = { s.cas with
          factor := 0, limited := false, upView := aged s.cas.upView, downView := aged s.cas.downView } := by
        simp [s2, hviews]
      rw [hcas] at rcas
      have himage : s2.ldr = s.ldr := rfl
      rw [himage] at rcas rflags
      refine ⟨_, hrun, ?_⟩
      simp only [rcas]
      simp [waits, hst, vMin, vMax]
      have hflags : SetsFlags s (workReference r.base s2) now _ := rflags
      exact ⟨hflags.congr (by simp), rreports, rfl, rfl, rfl, rfl, rfl, rfl, rfl, rfl, rfl, rfl,
        by simp [SameQueue, workReference, s2, s1, ageViews]⟩

end NotBiting

section SubSteps

/-- Settles O37. -/
theorem viewsAgeAndBoostEnds : Obligations.ViewsAgeAndBoostEnds := by
  intro s now aged
  have ends : ∀ {b : Bite} {i : Impact}, s.seq.bite = some b → b.impact = some i → exec (.impactEnd now) s =
      .next ((s.setClock now).setSeq { s.seq with bite := some { b with
        impact := (i.advance (s.lookup b.tag).values.impactTime).map fun _ => i } }) := by
    intro b i hb hi
    have htime : (s.setClock now).impactTime = (s.lookup b.tag).values.impactTime := by
      rw [State.impactTime, biteSchedule_of (s := s) (t := s.setClock now) rfl rfl hb]
    have hrun : exec (.impactEnd now) s = execImpactEnd now s := rfl
    simp [hrun, execImpactEnd, hb, htime, endImpact, hi]
  refine ⟨?_, fun b hb i hi h => ?_, fun b hb i hi h => ?_, fun h => ?_⟩
  · have hrun : exec (.viewStale now) s = .next (ageViews (s.setClock now)) := rfl
    simp [hrun, ageViews, aged_eq, aged]
  · rw [ends hb hi, Impact.advance, if_neg (by omega)]
    rfl
  · have hkeep : some { b with impact := some i } = s.seq.bite := by rw [hb, ← hi]
    rw [OnlyClock, ends hb hi, Impact.advance, if_pos h]
    exact congrArg (fun x => Host.Outcome.next ((s.setClock now).setSeq { s.seq with bite := x })) hkeep
  · have hrun : exec (.impactEnd now) s = execImpactEnd now s := rfl
    cases hb : s.seq.bite with
    | none => simp [OnlyClock, hrun, execImpactEnd, hb, Instr.now]
    | some b =>
      have hi : b.impact = none := by simpa [hb] using h
      have hkeep : some (endImpact b (s.setClock now).impactTime) = s.seq.bite := by
        rw [hb, endImpact, hi]
        cases b
        simpa using hi.symm
      simp only [OnlyClock, hrun, execImpactEnd, setClock_seq, hb]
      exact congrArg (fun x => Host.Outcome.next ((s.setClock now).setSeq { s.seq with bite := x })) hkeep

end SubSteps

end Sys2Proof.Machine
end


section
/-! PROOFS. The bits of a byte of flags, the two periodic frames and the age tick (R87 to R89, R153, R157, R181).
O38 is assembled from these. -/

namespace Sys2Proof.Machine

section FlagBytes

theorem byteBits_octet : ∀ b7 b6 b5 b4 b3 b2 b1 b0 : Bool,
    byteBits (octet b7 b6 b5 b4 b3 b2 b1 b0) = [b7, b6, b5, b4, b3, b2, b1, b0] := by decide

theorem octet_getLsbD (b7 b6 b5 b4 b3 b2 b1 b0 : Bool) :
    (octet b7 b6 b5 b4 b3 b2 b1 b0).getLsbD 7 = b7 ∧ (octet b7 b6 b5 b4 b3 b2 b1 b0).getLsbD 6 = b6 ∧
    (octet b7 b6 b5 b4 b3 b2 b1 b0).getLsbD 5 = b5 ∧ (octet b7 b6 b5 b4 b3 b2 b1 b0).getLsbD 4 = b4 ∧
    (octet b7 b6 b5 b4 b3 b2 b1 b0).getLsbD 3 = b3 ∧ (octet b7 b6 b5 b4 b3 b2 b1 b0).getLsbD 2 = b2 ∧
    (octet b7 b6 b5 b4 b3 b2 b1 b0).getLsbD 1 = b1 ∧ (octet b7 b6 b5 b4 b3 b2 b1 b0).getLsbD 0 = b0 := by
  simpa only [byteBits, List.cons.injEq, and_true] using byteBits_octet b7 b6 b5 b4 b3 b2 b1 b0

@[simp] theorem octet_getElem (b7 b6 b5 b4 b3 b2 b1 b0 : Bool) :
    (octet b7 b6 b5 b4 b3 b2 b1 b0)[7] = b7 ∧ (octet b7 b6 b5 b4 b3 b2 b1 b0)[6] = b6 ∧
    (octet b7 b6 b5 b4 b3 b2 b1 b0)[5] = b5 ∧ (octet b7 b6 b5 b4 b3 b2 b1 b0)[4] = b4 ∧
    (octet b7 b6 b5 b4 b3 b2 b1 b0)[3] = b3 ∧ (octet b7 b6 b5 b4 b3 b2 b1 b0)[2] = b2 ∧
    (octet b7 b6 b5 b4 b3 b2 b1 b0)[1] = b1 ∧ (octet b7 b6 b5 b4 b3 b2 b1 b0)[0] = b0 :=
  octet_getLsbD ..

/-- R142: a byte is the octet of its bits. -/
theorem octet_of_bits (b : Byte) : octet (b.getLsbD 7) (b.getLsbD 6) (b.getLsbD 5) (b.getLsbD 4) (b.getLsbD 3)
    (b.getLsbD 2) (b.getLsbD 1) (b.getLsbD 0) = b := by
  obtain ⟨h7, h6, h5, h4, h3, h2, h1, h0⟩ := octet_getLsbD (b.getLsbD 7) (b.getLsbD 6) (b.getLsbD 5) (b.getLsbD 4)
    (b.getLsbD 3) (b.getLsbD 2) (b.getLsbD 1) (b.getLsbD 0)
  refine BitVec.eq_of_getLsbD_eq fun i hi => ?_
  interval_cases i <;> assumption

/-- R88: the places of the CASCADE flags in their byte. -/
theorem cascadeByte_bits : ∀ (code : Fin 8) (b4 b3 b2 b1 : Bool),
    let flags := BitVec.ofNat 8 (code.val * 32 + b4.toNat * 16 + b3.toNat * 8 + b2.toNat * 4 + b1.toNat * 2)
    (flags.extractLsb' 5 3).toNat = code.val ∧ flags.getLsbD 4 = b4 ∧ flags.getLsbD 3 = b3 ∧ flags.getLsbD 2 = b2 ∧
      flags.getLsbD 1 = b1 ∧ flags.getLsbD 0 = false := by decide

end FlagBytes

section Codes

theorem StandState.code_le (x : StandState) : x.code ≤ 6 := by cases x <;> decide

theorem LooperState.code_le (x : LooperState) : x.code ≤ 6 := by
  cases x with
  | stalled op tag => cases op <;> simp [LooperState.code]
  | _ => simp [LooperState.code]

theorem LinkState.code_le (x : LinkState) : x.code ≤ 4 := by cases x <;> decide

end Codes

section Status

variable {s : State} {now start : Instant}

/-- R181: a STATUS frame carries each sticky flag in its place. -/
theorem carriesFlag_statusData (s : State) (f : StickyFlag) : carriesFlag (statusData s) f = s.stickySet f := by
  cases f <;> simp [carriesFlag, statusData, StickyFlag.place]

theorem execStatusFramePeriod_eq (hp : s.rep.periodFrom = some start) (ht : 100000 ≤ elapsed now start) :
    exec (.statusFramePeriod now) s = .next (offer (.status (statusData (catchUpFlaw (s.setClock now))))
      ((catchUpFlaw (s.setClock now)).setRep
        { (catchUpFlaw (s.setClock now)).rep with periodFrom := some (start + 100000) })) := by
  have hrun : exec (.statusFramePeriod now) s = execStatusFramePeriod now s := rfl
  rw [hrun]
  simp [execStatusFramePeriod, hp, periodDone, ht, nextPeriod]

/-- R157: the flags after the drill has been caught up with. -/
theorem catchUpFlaw_stickySet (f : StickyFlag) : (catchUpFlaw (s.setClock now)).stickySet f =
    (s.stickySet f || (f == .drillFired && flawSentBy s now)) := by
  rcases catchUpFlaw_cases (s.setClock now) with ⟨h, e⟩ | ⟨a, -, h, e⟩
  · rw [e, ← flawSent_eq, h]
    simp [State.stickySet]
  · rw [e, ← flawSent_eq, h, State.stickySet, fireFlaw_stickyMark]
    by_cases hf : f = .drillFired <;> simp [hf, State.stickySet]

theorem catchUpFlaw_armed : (catchUpFlaw (s.setClock now)).link.flawArmed = (s.link.flawArmed && !flawSentBy s now) := by
  simp [State.flawStillArmed, flawSent_eq]

theorem catchUpFlaw_of_sent (h : flawSentBy s now = true) :
    let u := catchUpFlaw (s.setClock now)
    u.clock = now ∧ u.link = { s.link with flawArmed := false } ∧ u.txq = s.txq ∧ u.ec = s.ec ∧ SameStand s u ∧
    SameQueue s u ∧ KeepsReports s u ∧ ∀ a, s.link.attempt = some a → ∀ f, u.stickyMark f =
      if f = .drillFired then some ⟨checkWordSentAt s a, s.txq.nextOrder⟩ else s.stickyMark f := by
  rcases catchUpFlaw_cases (s.setClock now) with ⟨hs, -⟩ | ⟨a, ha, -, e⟩
  · simp [flawSent_eq, h] at hs
  · rw [e]
    refine ⟨by simp, by simp, by simp, by simp, by simp [SameStand], by simp [SameQueue], by simp [KeepsReports], fun b hb f => ?_⟩
    obtain rfl : a = b := by simpa [hb] using ha.symm
    rw [fireFlaw_stickyMark, checkSentAt_eq]
    rfl

end Status

section Periods

theorem periodDone_eq_false {length : Nat} {now : Instant} {from_ : Option Instant}
    (h : ∀ start, from_ = some start → elapsed now start < length) : periodDone length now from_ = false := by
  cases from_ with
  | none => rfl
  | some start => simpa [periodDone] using h start rfl

/-- R153: a tick marks a pending slot, by the age its notice has reached. -/
theorem tick_eq (now : Instant) (x : Slot) : (if x.inTransmission then x else markSaturated now x) =
    { x with saturated := x.saturated || (!x.inTransmission && ageReached now x) } := by
  cases h : x.inTransmission
  · simp [markSaturated, h]
  · cases x
    simp_all

/-- Settles O38. -/
theorem periodicFramesAndAges : Obligations.PeriodicFramesAndAges := by
  refine ⟨fun s now start => ⟨fun hs hp ht => ?_, fun hp ht hm => ?_⟩, fun s now => ⟨fun h => ?_, fun h => ?_⟩,
    fun s now => ?_⟩
  · refine ⟨cascadeFlags s, ?_, cascadeByte_bits ⟨s.seq.stand.code, by have := s.seq.stand.code_le; omega⟩ ..⟩
    have hrun : exec (.cascadeFramePeriod now) s = execCascadeFramePeriod now s := rfl
    rw [hrun]
    simp [execCascadeFramePeriod, hp, hs, periodDone, ht, nextPeriod, cascadeFrame, biteTag_eq]
    rfl
  · have hstand := s.seq.stand.code_le
    have hlooper := s.lp.state.code_le
    have hlink := s.ec.link.code_le
    have hdrive := Bool.toNat_le s.hold.ownDrive
    refine ⟨_, _, execStatusFramePeriod_eq hp ht, fun h => ?_, catchUpFlaw_of_sent, ?_, ?_, ?_, fun f => ?_, ?_, ?_, ?_⟩
    · rcases catchUpFlaw_cases (s.setClock now) with ⟨-, e⟩ | ⟨a, -, hf, -⟩
      · exact e
      · simp [flawSent_eq, h] at hf
    · simp [statusData]
      omega
    · simp [statusData, biteTag_eq]
    · simp [statusData]
      omega
    · rw [carriesFlag_statusData, catchUpFlaw_stickySet]
    · have hpredicted (u : State) : u.predicted = (u.seq.bite.map Bite.predicted).getD false := by
        unfold State.predicted
        cases u.seq.bite <;> rfl
      simp [statusData, State.upstreamStale, State.downstreamStale, State.atFirst, State.atLast, State.position,
        hpredicted, State.flawStillArmed, flawSent_eq]
    · simp [statusData]
    · simp [statusData]
  · have hrun : exec (.cascadeFramePeriod now) s = execCascadeFramePeriod now s := rfl
    rw [OnlyClock, hrun]
    rcases h with h | h
    · simp [execCascadeFramePeriod, h, Instr.now]
    · simp [execCascadeFramePeriod, periodDone_eq_false h, Instr.now]
  · have hrun : exec (.statusFramePeriod now) s = execStatusFramePeriod now s := rfl
    rw [OnlyClock, hrun]
    simp [execStatusFramePeriod, periodDone_eq_false h, Instr.now]
  · have hrun : exec (.noticeAgeTick now) s = execNoticeAgeTick now s := rfl
    refine ⟨_, hrun, rfl, fun i => ?_, ⟨rfl, rfl, rfl, rfl, rfl, rfl, rfl, rfl⟩, rfl, rfl, rfl, rfl, rfl⟩
    rw [setTxq_txq, getElem_mapSlots]
    refine Option.map_congr fun x _ => ?_
    rw [tick_eq]
    obtain ⟨frame, _, _, _, _, _, _⟩ := x
    cases frame <;> rfl

end Periods

end Sys2Proof.Machine
end

section
/-! PROOFS. The hold line and its filter, the release qualification, and the own drive (R25 to R31, R128 to R132).
O39 to O41 are assembled from these. -/

namespace Sys2Proof.Machine

section Monitor

variable {s t : State} {now : Instant}

theorem takeForce_hold (f : Nat) (s : State) : (takeForce f s).hold = s.hold := by
  rcases takeForce_cases f s with e | ⟨-, h⟩
  · rw [e]
    simp
  · have hforce {u v : State} (h : ForceDoes u v) : v.hold = u.hold := by cases h <;> simp
    rw [hforce h]
    simp

/-- R129: but for a TRACKING_EXPIRY no command starts the own drive. -/
theorem DoesWhen.ownDrive (hd : DoesWhen False s t) (h : t.hold.ownDrive = true) : s.hold.ownDrive = true := by
  cases hd
  case expiry he _ => exact he.elim
  case reset => cases h
  case release | giveLink => exact h
  case configure =>
    obtain ⟨-, -, -, -, -, hhold, -⟩ :=
      enterHoldIfActive_frame (Machine.giveLink (Machine.configure (parseImage s.position _) s))
    rwa [hhold] at h
  case link hd =>
    obtain ⟨-, -, -, -, -, -, -, hhold⟩ := hd.sameStand
    rwa [hhold] at h
  case hotMetal level =>
    obtain ⟨_, _, e | e⟩ := readHotMetal_cases level s <;> rw [e] at h
    · exact h
    · simpa using h
  case force => rwa [takeForce_hold] at h
  case endDrive => simp at h
  case restart target _ =>
    rcases restartStation_cases target (receiveClean _ s) with e | ⟨e, -⟩ | ⟨e, -⟩ <;> rw [e] at h
    · simpa using h
    · simpa [restartLink] using h
    · simp [restartLink] at h
  all_goals simpa using h

/-- R129: an expiry starts the own drive only where it misses a head that the stand waits for. -/
theorem missesHead_of_ownDrive (h : (predict (reported (s.setClock now))).hold.ownDrive = true)
    (hs : s.hold.ownDrive = false) : missesHead s = true := by
  rw [← Bool.not_eq_false]
  intro hm
  obtain ⟨hhold, -⟩ := reported_keeps now hm
  simp [hhold, hs] at h

/-- Settles O39. -/
theorem holdLineHoldsStand : Obligations.HoldLineHoldsStand := by
  intro s now hp hf hline ht monitor
  have hsettled : (lineSettled (s.setClock now) && (s.setClock now).hold.line && !(s.setClock now).hold.filtered) = true := by
    have hsampling := (sampling_iff (s := s.setClock now)).mpr hp
    have hline' : s.hold.line = true := by simpa [HoldMonitor.line] using hline
    simp [lineSettled, hsampling, hline', hf, ht]
  have hrun : exec (.holdLineActive now) s = .next (enterHoldIfActive ((s.setClock now).setHold monitor)) :=
    congrArg Host.Outcome.next (if_pos hsettled)
  refine ⟨fun htracks => ?_, fun htracks => ?_⟩
  · have henter : enterHoldIfActive ((s.setClock now).setHold monitor) = holdEntry ((s.setClock now).setHold monitor) :=
      if_pos (by simp [monitor, htracks])
    rw [henter] at hrun
    refine ⟨_, hrun, by simp [monitor], by simp, by simp, by simp [retireEntered], by simp, ?_, by simp, fun i => ?_, by simp,
      by simp, by simp, by simp, by simp, by simp [SameQueue]⟩
    · rw [holdEntry_lp]
      cases hs : s.lp.state <;> simp [holdLowerLooper, hs, startLowering, biteTag_eq]
    · rw [holdEntry_txq, getElem_mapSlots]
      show clearAtHold s.txq.slots[i] = _
      unfold clearAtHold
      cases s.txq.slots[i] <;> rfl
  · rw [hrun, enterHoldIfActive, if_neg (by simp [htracks])]

/-- Settles O40. -/
theorem releaseQualifiesAndEndsHold : Obligations.ReleaseQualifiesAndEndsHold := by
  intro s now hp
  have hsampling := (sampling_iff (s := s.setClock now)).mpr hp
  refine ⟨fun hf ho hd ht => ?_, fun start hstart hf ht => ?_⟩
  · have hsettled : (lineSettled (s.setClock now) && !(s.setClock now).hold.line && (s.setClock now).hold.filtered) = true := by
      simp [lineSettled, hsampling, HoldMonitor.line, ho, hd, hf, ht]
    exact congrArg Host.Outcome.next (if_pos hsettled)
  · intro monitor
    have hdone : qualificationDone (s.setClock now) = true := by
      simp [qualificationDone, hstart, hsampling, hf, ht]
    have hrun : exec (.releaseQualified now) s = .next (leaveHoldIfReady ((s.setClock now).setHold monitor)) :=
      congrArg Host.Outcome.next (if_pos hdone)
    refine ⟨fun h => ?_, fun hs hl => ?_⟩
    · rw [hrun, leaveHoldIfReady, if_neg]
      rintro ⟨hs, -, hl⟩
      rcases h with h | h
      · exact h hs
      · cases hl.symm.trans h
    · rw [hrun, leaveHoldIfReady, if_pos ⟨hs, rfl, hl⟩, holdExit_eq]
      rfl

/-- Settles O41: the wire, the RELEASE, and by the inversion of the commands the start of the own drive. -/
theorem wireAndOwnDrive : Obligations.WireAndOwnDrive := by
  refine ⟨fun c s t hc hs ht => ?_, fun s now sender active marker => ⟨?_, fun h => ?_⟩⟩
  · obtain rfl := after_eq_of_exec hc
    by_cases hexp : ∃ now, c = .trackingExpiry now
    · obtain ⟨now, rfl⟩ := hexp
      by_cases hu : s.seq.stand = .unconfigured
      · have hrun : after (.trackingExpiry now) s = s.setClock now := if_pos hu
        rw [hrun] at ht
        cases hs.symm.trans ht
      · have hrun : after (.trackingExpiry now) s = predict (reported (s.setClock now)) := if_neg hu
        rw [hrun] at ht
        have hmiss := missesHead_of_ownDrive ht hs
        simp only [missesHead, Bool.and_eq_true, Bool.or_eq_true, beq_iff_eq, Bool.not_eq_true', List.isEmpty_eq_false_iff] at hmiss
        obtain ⟨hstand, hmissed⟩ := hmiss
        obtain ⟨m, hm⟩ := List.exists_mem_of_ne_nil _ hmissed
        obtain ⟨hmem, hmd⟩ := List.mem_filter.mp hm
        simp only [Bool.and_eq_true, beq_iff_eq, decide_eq_true_eq] at hmd
        exact ⟨rfl, hstand, m, hmem, hmd⟩
    · have hd : DoesWhen False (s.setClock c.now) (after c s) := after_doesWhen c s fun now h => hexp ⟨now, h⟩
      cases hs.symm.trans (hd.ownDrive ht)
  · rfl
  · have hrun : exec (.release ⟨now, marker⟩ sender) s = .next (setDrive false (Heard s ⟨now, marker⟩)) :=
      congrArg _ (receiveFrame_of_delivers h nofun rfl ⟨now, marker⟩ (setDrive false))
    rw [hrun]
    simp [setDrive, HoldMonitor.line]

end Monitor

end Sys2Proof.Machine
end


section
/-! PROOFS. The acceptance table (R165, R166) and what a clean frame does whose effect is none of its own (R150, R154, R165 to R169).
O42 is assembled from these. -/

namespace Sys2Proof.Machine

section Acceptance

/-- R165: an entry matches when it agrees at every bit of its mask. -/
theorem matchesBits_iff (e : AcceptEntry) (b : BitVec 12) :
    e.matchesBits b = true ↔ ∀ n, n < 12 → e.mask.getLsbD n = true → e.bits.getLsbD n = b.getLsbD n := by
  rw [AcceptEntry.matchesBits, beq_iff_eq]
  constructor
  · intro h n _ hm
    have := congrArg (fun x : BitVec 12 => x.getLsbD n) h
    simpa [hm, eq_comm] using this
  · intro h
    refine BitVec.eq_of_getLsbD_eq fun n hn => ?_
    cases hm : e.mask.getLsbD n with
    | false => simp [hm]
    | true => simp [hm, h n hn hm]

/-- R165: the 12 bits looked at are precedence, sender and kind, one after the other. -/
theorem acceptBits_eq (precedence : BitVec 3) (sender : BitVec 5) (kind : BitVec 4) :
    acceptBits precedence sender kind = precedence ++ sender ++ kind := by
  apply BitVec.eq_of_toNat_eq
  have hp := precedence.isLt
  have hs := sender.isLt
  have hk := kind.isLt
  rw [BitVec.toNat_append, BitVec.toNat_append, ← Nat.shiftLeft_add_eq_or_of_lt hs, ← Nat.shiftLeft_add_eq_or_of_lt hk]
  simp [acceptBits, Nat.shiftLeft_eq]
  omega

theorem acceptBits_getLsbD (precedence : BitVec 3) (sender : BitVec 5) (kind : BitVec 4) {n : Nat} (hn : n < 12) :
    (acceptBits precedence sender kind).getLsbD n = if 9 ≤ n then precedence.getLsbD (n - 9)
      else if 4 ≤ n then sender.getLsbD (n - 4) else kind.getLsbD n := by
  rw [acceptBits_eq, BitVec.getLsbD_append, BitVec.getLsbD_append]
  by_cases h4 : n < 4
  · simp [h4, show ¬9 ≤ n by omega, show ¬4 ≤ n by omega]
  · by_cases h9 : n < 9
    · simp [h4, show n - 4 < 5 by omega, show ¬9 ≤ n by omega, show 4 ≤ n by omega]
    · simp [h4, show ¬n - 4 < 5 by omega, show 9 ≤ n by omega, show n - 4 - 5 = n - 9 by omega]

theorem acceptRole_of_first {ahead behind : List AcceptEntry} {e : AcceptEntry} {b : BitVec 12}
    (ha : ∀ x ∈ ahead, ¬x.matchesBits b = true) (he : e.matchesBits b = true) :
    acceptRole (ahead ++ e :: behind) b = some e.role := by
  have hnone : ahead.find? (fun x => x.matchesBits b) = none := List.find?_eq_none.mpr ha
  simp [acceptRole, List.find?_append, hnone, he]

theorem acceptRole_of_none {entries : List AcceptEntry} {b : BitVec 12} (h : ∀ x ∈ entries, ¬x.matchesBits b = true) :
    acceptRole entries b = none := by
  simp [acceptRole, List.find?_eq_none.mpr h]

/-- A mask of k ones above j zeros takes k bits of a number out of their place. -/
theorem and_mask (x k j : Nat) : x &&& (2 ^ k - 1) * 2 ^ j = x / 2 ^ j % 2 ^ k * 2 ^ j := by
  refine Nat.eq_of_testBit_eq fun i => ?_
  simp only [Nat.testBit_and, Nat.testBit_mul_two_pow, Nat.testBit_two_pow_sub_one, Nat.testBit_mod_two_pow,
    Nat.testBit_div_two_pow]
  by_cases h : j ≤ i
  · simp [h, Bool.and_comm]
  · simp [h]

/-- R166: an entry whose mask covers the sender's bits matches the frames of one sender. -/
theorem matches_sender_iff (y : Nat) (role : Role) (precedence : BitVec 3) (sender : BitVec 5) (kind : BitVec 4) :
    ({ bits := BitVec.ofNat 12 (y * 16), mask := 0x1F0, role := role } : AcceptEntry).matchesBits
      (acceptBits precedence sender kind) = true ↔ sender = BitVec.ofNat 5 y := by
  have hp := precedence.isLt
  have hs := sender.isLt
  have hk := kind.isLt
  have hmask (x : Nat) : x &&& 0x1F0 = x / 16 % 32 * 16 := and_mask x 5 4
  rw [AcceptEntry.matchesBits, beq_iff_eq, ← BitVec.toNat_inj, ← BitVec.toNat_inj]
  simp [acceptBits, hmask]
  omega

theorem matches_setup_iff (role : Role) (precedence : BitVec 3) (sender : BitVec 5) (kind : BitVec 4) :
    ({ bits := 0x180, mask := 0x180, role := role } : AcceptEntry).matchesBits
      (acceptBits precedence sender kind) = true ↔ 24 ≤ sender.toNat := by
  have hp := precedence.isLt
  have hs := sender.isLt
  have hk := kind.isLt
  have hmask (x : Nat) : x &&& 0x180 = x / 128 % 4 * 128 := and_mask x 2 7
  rw [AcceptEntry.matchesBits, beq_iff_eq, ← BitVec.toNat_inj]
  simp [acceptBits, hmask]
  omega


/-- R166: the role that the default table gives a sender. -/
theorem acceptRole_default (p : Fin 8) (n : Nat) (precedence : BitVec 3) (sender : BitVec 5) (kind : BitVec 4) :
    acceptRole (defaultAccept (p.val + 1) n) (acceptBits precedence sender kind) = some
      (if sender.toNat + 1 = p.val + 1 then (if p.val + 1 = 1 then .closed else .upstream)
       else if sender.toNat = p.val + 1 + 1 then (if p.val + 1 = n then .closed else .downstream)
       else if 24 ≤ sender.toNat then .setup else .closed) := by
  have hs := sender.isLt
  have hp := p.isLt
  let b := acceptBits precedence sender kind
  let up : AcceptEntry :=
    { bits := BitVec.ofNat 12 ((p.val + 1 - 1) * 16), mask := 0x1F0, role := if p.val + 1 = 1 then .closed else .upstream }
  let down : AcceptEntry :=
    { bits := BitVec.ofNat 12 ((p.val + 1 + 1) * 16), mask := 0x1F0, role := if p.val + 1 = n then .closed else .downstream }
  let setup : AcceptEntry := { bits := 0x180, mask := 0x180, role := .setup }
  let rest : AcceptEntry := { bits := 0x000, mask := 0x000, role := .closed }
  have hup : up.matchesBits b = true ↔ sender.toNat + 1 = p.val + 1 := by
    rw [matches_sender_iff, ← BitVec.toNat_inj, BitVec.toNat_ofNat]
    omega
  have hdown : down.matchesBits b = true ↔ sender.toNat = p.val + 1 + 1 := by
    rw [matches_sender_iff, ← BitVec.toNat_inj, BitVec.toNat_ofNat]
    omega
  have hsetup : setup.matchesBits b = true ↔ 24 ≤ sender.toNat := matches_setup_iff ..
  have hrest : rest.matchesBits b = true := by simp [AcceptEntry.matchesBits, rest]
  show acceptRole [up, down, setup, rest] b = _
  by_cases h1 : sender.toNat + 1 = p.val + 1
  · rw [if_pos h1]
    exact acceptRole_of_first (ahead := []) nofun (hup.mpr h1)
  rw [if_neg h1]
  by_cases h2 : sender.toNat = p.val + 1 + 1
  · rw [if_pos h2]
    exact acceptRole_of_first (ahead := [up]) (by simp [mt hup.mp h1]) (hdown.mpr h2)
  rw [if_neg h2]
  by_cases h3 : 24 ≤ sender.toNat
  · rw [if_pos h3]
    exact acceptRole_of_first (ahead := [up, down]) (by simp [mt hup.mp h1, mt hdown.mp h2]) (hsetup.mpr h3)
  · rw [if_neg h3]
    exact acceptRole_of_first (ahead := [up, down, setup]) 
      (by simp [mt hup.mp h1, mt hdown.mp h2, mt hsetup.mp h3]) hrest

end Acceptance

section Fates

variable {s : State} {kind : FrameKind} {sender : BitVec 5}

theorem fate_of_ignored (h : FrameIgnored s kind sender) : fate s kind sender = .ignored := by
  rcases h with ⟨hu, hr | hr⟩ | ⟨hu, hr⟩
  · simp [fate, hu, hr]
  · simp [fate, hu, hr]
  · simp [fate, hu, fromSetup]
    intro hk
    rcases hr with hr | hr
    · exact absurd hk hr
    · exact hr

theorem fate_of_misfit {role : Role} (hu : s.seq.stand ≠ .unconfigured) (hr : s.roleOf kind sender = some role)
    (hm : misfit s kind role = true) : fate s kind sender = .stray := by
  cases role with
  | closed => cases kind <;> cases hm
  | upstream | downstream | setup => simp [fate, hu, hr, hm]

theorem fate_of_stray (h : FrameStray s kind sender) : fate s kind sender = .stray := by
  obtain ⟨hu, ⟨hr, hk⟩ | ⟨hr | hr, hk⟩ | ⟨hr, hf, hk⟩ | ⟨hr, hk, hs⟩⟩ := h
  all_goals refine fate_of_misfit hu hr ?_
  · fin_cases hk <;> rfl
  · fin_cases hk <;> rfl
  · fin_cases hk <;> rfl
  · fin_cases hk <;> exact hf
  · subst hk
    simpa [misfit] using hs

/-- R150, R165: a station that listens takes an ignored frame as its clean receive alone. -/
theorem receiveFrame_of_ignored (hl : Listens s) (h : FrameIgnored s kind sender) (fin : FrameEnd) (act : State → State) :
    receiveFrame kind fin sender act (s.setClock fin.now) = Heard s fin := by
  have hhears : hearsSound (s.setClock fin.now) = true := (hearsSound_iff _).mpr hl
  have hfate : fate (s.setClock fin.now) kind sender = .ignored := fate_of_ignored h
  simp [receiveFrame, hhears, hfate]

/-- R167, R168: and a stray one as its clean receive and its count. -/
theorem receiveFrame_of_stray (hl : Listens s) (h : FrameStray s kind sender) (fin : FrameEnd) (act : State → State) :
    receiveFrame kind fin sender act (s.setClock fin.now) = countedStray (Heard s fin) := by
  have hhears : hearsSound (s.setClock fin.now) = true := (hearsSound_iff _).mpr hl
  have hfate : fate (s.setClock fin.now) kind sender = .stray := fate_of_stray h
  simp [receiveFrame, hhears, hfate]
  rfl

theorem receiveFrame_of_deaf (h : ¬Listens s) (fin : FrameEnd) (act : State → State) :
    receiveFrame kind fin sender act (s.setClock fin.now) = s.setClock fin.now :=
  if_neg fun hh => h ((hearsSound_iff _).mp hh)

/-- The frame that a command delivers is taken as `receiveFrame` takes it, and ends at the command's clock reading. -/
theorem exec_of_frameOf {c : Instr} {fin : FrameEnd} (h : frameOf c = some (fin, kind, sender)) (s : State) :
    c.now = fin.now ∧ ∃ act, exec c s = .next (receiveFrame kind fin sender act (s.setClock fin.now)) := by
  cases c <;> simp only [frameOf, Option.some.injEq, Prod.mk.injEq, reduceCtorEq] at h
  all_goals
    obtain ⟨rfl, rfl, rfl⟩ := h
    exact ⟨rfl, _, rfl⟩

theorem exec_of_ignored {c : Instr} {fin : FrameEnd} (hc : frameOf c = some (fin, kind, sender)) (hl : Listens s)
    (h : FrameIgnored s kind sender) : exec c s = .next (Heard s fin) := by
  obtain ⟨-, act, e⟩ := exec_of_frameOf hc s
  rw [e, receiveFrame_of_ignored hl h]

theorem exec_of_stray {c : Instr} {fin : FrameEnd} (hc : frameOf c = some (fin, kind, sender)) (hl : Listens s)
    (h : FrameStray s kind sender) : exec c s = .next (countedStray (Heard s fin)) := by
  obtain ⟨-, act, e⟩ := exec_of_frameOf hc s
  rw [e, receiveFrame_of_stray hl h]

end Fates

section Clean

/-- R170: outside OFF-LINK the link state is JOINING still, or what the counts give. -/
theorem follow_of_onLink {e : ErrorConfinement} (h : e.link ≠ .offLink) : e.follow = { e with
    link := if e.link = .joining then .joining
      else if 128 ≤ e.txErrors ∨ 128 ≤ e.rxErrors then .muted
      else if 64 ≤ e.txErrors ∨ 64 ≤ e.rxErrors then .warned else .active } := by
  rw [follow_eq]
  cases hl : e.link with
  | offLink => exact absurd hl h
  | joining =>
    cases e
    simp_all [LinkState.sends]
  | active | warned | muted => rfl

theorem malformed_iff (precedence : BitVec 3) (code length : BitVec 4) : malformed precedence code length = true ↔
    ∀ kind : FrameKind, kind.code = code → kind.precedence ≠ precedence ∨ kind.length ≠ length := by
  simp only [malformed, Bool.not_eq_true', List.any_eq_false, Bool.and_eq_true, beq_iff_eq]
  constructor
  · intro h kind hcode
    by_contra hno
    exact h kind (by cases kind <;> decide) (by tauto)
  · rintro h kind - ⟨⟨hcode, hp⟩, hl⟩
    rcases h kind hcode with h | h
    · exact h hp
    · exact h hl

/-- A station that hears a malformed frame. -/
theorem execMalformedFrame_eq {s : State} (hl : Listens s) (fin : FrameEnd) {precedence : BitVec 3} (sender : BitVec 5)
    {code length : BitVec 4} (h : malformed precedence code length = true) :
    exec (.malformedFrame fin precedence sender code length) s =
      .next (if s.seq.stand = .unconfigured then Heard s fin else countStray (Heard s fin)) := by
  have hhears : hearsSound (s.setClock fin.now) = true := (hearsSound_iff _).mpr hl
  exact congrArg Host.Outcome.next (if_pos (by simp [hhears, h]))

/-- Settles O42. -/
theorem cleanFramesAreReported : Obligations.CleanFramesAreReported := by
  refine ⟨fun s kind sender => ?_, fun s fin sender kind => ?_, fun c s fin kind sender hc =>
      ⟨fun hl h => ?_, fun hl h => ?_, fun hl => ?_⟩,
    fun s fin precedence sender code length hl h => ⟨fun hu => ?_, fun hu => ?_⟩⟩
  · intro frameBit agrees
    have hbit {n : Nat} (hn : n < 12) : (acceptBits kind.precedence sender kind.code).getLsbD n = frameBit n :=
      acceptBits_getLsbD _ _ _ hn
    have hagrees (e : AcceptEntry) : agrees e ↔ e.matchesBits (acceptBits kind.precedence sender kind.code) = true := by
      rw [matchesBits_iff]
      exact forall₂_congr fun n hn => by rw [hbit hn]
    refine ⟨fun ahead behind e ha hx he => ?_, fun hx => ?_, fun n ha => ?_⟩
    · rw [State.roleOf, ha]
      exact acceptRole_of_first (fun x hmem h => hx x hmem ((hagrees x).mpr h)) ((hagrees e).mp he)
    · exact acceptRole_of_none fun x hmem h => hx x hmem ((hagrees x).mpr h)
    · rw [State.roleOf, ha]
      exact acceptRole_default ⟨s.ldr.positionCode.toNat, s.ldr.positionCode.isLt⟩ n _ sender _
  · intro received hl
    have hhears : hearsSound (s.setClock fin.now) = true := (hearsSound_iff _).mpr hl
    refine ⟨rfl, ?_, ⟨rfl, rfl, rfl, rfl, rfl, rfl, rfl, rfl⟩, ⟨rfl, rfl⟩, rfl, rfl, fun h => ?_, fun h => ?_⟩
    · have hec : (Heard s fin).ec = s.ec.cleanReceive := rfl
      rw [hec, cleanReceive_eq]
      by_cases ho : s.ec.link = .offLink
      · rw [if_pos ho, if_pos ho]
      · rw [if_neg ho, if_neg ho, follow_of_onLink (by exact ho)]
    · exact congrArg Host.Outcome.next (if_pos (by simpa [hhears] using fate_of_ignored (s := s.setClock fin.now) h))
    · exact congrArg Host.Outcome.next (if_pos (by simpa [hhears] using fate_of_stray (s := s.setClock fin.now) h))
  · exact exec_of_ignored hc hl h
  · exact exec_of_stray hc hl h
  · obtain ⟨hnow, act, e⟩ := exec_of_frameOf hc s
    rw [OnlyClock, e, receiveFrame_of_deaf hl, hnow]
  · exact (execMalformedFrame_eq hl fin sender ((malformed_iff ..).mpr h)).trans (congrArg _ (if_neg hu))
  · exact (execMalformedFrame_eq hl fin sender ((malformed_iff ..).mpr h)).trans (congrArg _ (if_pos hu))

end Clean

end Sys2Proof.Machine
end


section
/-! PROOFS. The frames between stand stations (R13 to R15, R31 to R34, R84, R139): a notice that makes a marker, one that is adopted,
one that couples the stand, the view of a CASCADE frame, and the frames without an effect. O43 to O47 are assembled from these. -/

namespace Sys2Proof.Machine

section Notices

variable {s : State} {sender : BitVec 5} {tag : Tag} {age : BitVec 16} {fin : FrameEnd}

/-- R13, R31: an UPSTREAM HEAD-ON at positions 2..N, in the station that has reported the clean receive. -/
theorem exec_upstreamHeadOn (h : Delivers s .headOn sender .upstream) (hf : s.atFirst = false) (fin : FrameEnd) (tag : Tag)
    (age : BitVec 16) : exec (.upstreamHeadOn fin sender tag age) s = .next (upstreamHead tag age (Heard s fin)) := by
  have hrole : (Heard s fin).roleOf .headOn sender = some .upstream := h.2.2
  have hact : headOnAction sender tag age (Heard s fin) = upstreamHead tag age (Heard s fin) := by simp [headOnAction, hrole]
  rw [← hact]
  exact congrArg _ (receiveFrame_of_delivers h nofun hf fin (headOnAction sender tag age))

theorem exec_upstreamTailOff (h : Delivers s .tailOff sender .upstream) (hf : s.atFirst = false) (fin : FrameEnd) (tag : Tag)
    (age : BitVec 16) : exec (.upstreamTailOff fin sender tag age) s = .next (trackNotice .tail tag age (Heard s fin)) := by
  have hrole : (Heard s fin).roleOf .tailOff sender = some .upstream := h.2.2
  have hact : tailOffAction sender tag age (Heard s fin) = trackNotice .tail tag age (Heard s fin) := by
    simp [tailOffAction, hrole]
  rw [← hact]
  exact congrArg _ (receiveFrame_of_delivers h nofun hf fin (tailOffAction sender tag age))

theorem exec_downstreamHeadOn (h : Delivers s .headOn sender .downstream) (hs : s.seq.stand = .threading) (fin : FrameEnd)
    (tag : Tag) (age : BitVec 16) :
    exec (.downstreamHeadOn fin sender tag age) s = .next (downstreamHead tag (Heard s fin)) := by
  have hrole : (Heard s fin).roleOf .headOn sender = some .downstream := h.2.2
  have hact : headOnAction sender tag age (Heard s fin) = downstreamHead tag (Heard s fin) := by simp [headOnAction, hrole]
  have hfit : misfit s .headOn .downstream = false := by simp [misfit, hs]
  rw [← hact]
  exact congrArg _ (receiveFrame_of_delivers h nofun hfit fin (headOnAction sender tag age))

/-- R13: without an UNANNOUNCED bite a HEAD-ON makes a marker. -/
theorem upstreamHead_of_announced (h : ∀ b, s.seq.bite = some b → b.unannounced = false) :
    upstreamHead tag age s = trackNotice .head tag age s := by
  unfold upstreamHead
  cases hb : s.seq.bite with
  | none => rfl
  | some b => simp [h b hb]

/-- R31, R33, R38: what a notice's marker does to a station that is configured. -/
theorem trackNotice_eq (hu : s.seq.stand ≠ .unconfigured) (kind : MarkerKind) (tag : Tag) (age : BitVec 16) :
    trackNotice kind tag age s = if s.seq.stand = .hold then s
      else if 8 ≤ s.trk.markers.length then setSticky .trackFull s
      else s.setTrk { s.trk with
        markers := insertMarker (placedMarker s kind tag s.ldr.image.dUp (noticeElapsed s age)) s.trk.markers } := by
  by_cases hs : s.seq.stand = .hold
  · rw [trackNotice_of_hold kind tag age hs, if_pos hs]
  · have htracks : s.seq.stand.tracks = true := by cases h : s.seq.stand <;> simp_all [StandState.tracks]
    rw [trackNotice, if_pos htracks, if_neg hs]
    rfl

/-- Settles O43. -/
theorem noticesMakeMarkers : Obligations.NoticesMakeMarkers := by
  intro s fin sender tag age i v headRate tailRate bit travel marker after hf
  -- the marker is placed by the travel in the capture interval of 66 bit times and the age
  have hplaced (kind : MarkerKind) (rate : Nat) (hr : markerRate s kind tag = rate) :
      placedMarker (Heard s fin) kind tag s.ldr.image.dUp (noticeElapsed (Heard s fin) age) = marker kind rate := by
    have hrate : markerRate (Heard s fin) kind tag = rate := hr
    have helapsed : noticeElapsed (Heard s fin) age = 66 * bit + 10 * age.toNat := rfl
    rw [placedMarker, hrate, helapsed]
    simp [marker, travel]
  have htrack (kind : MarkerKind) (rate : Nat) (hr : markerRate s kind tag = rate) (hu : s.seq.stand ≠ .unconfigured) :
      trackNotice kind tag age (Heard s fin) = after (marker kind rate) := by
    rw [trackNotice_eq (s := Heard s fin) hu, ← hplaced kind rate hr]
    rfl
  refine ⟨fun h hb => ?_, fun h => ?_⟩
  · have hrate : markerRate s .head tag = headRate := if_neg (by simp [hf])
    rw [exec_upstreamHeadOn h hf, upstreamHead_of_announced (s := Heard s fin) hb, htrack .head headRate hrate h.2.1]
  · rw [exec_upstreamTailOff h hf, htrack .tail tailRate rfl h.2.1]

theorem upstreamHead_of_unannounced {b : Bite} (hb : s.seq.bite = some b) (hun : b.unannounced = true) :
    upstreamHead tag age s = adopt b tag s := by
  simp [upstreamHead, hb, hun]

theorem downstreamHead_of_threading {b : Bite} (hs : s.seq.stand = .threading) (hb : s.seq.bite = some b) :
    downstreamHead tag s = couple b tag s := by
  simp [downstreamHead, hs, hb]

/-- R13, R103: what the adoption of a notice leaves. -/
theorem adopt_spec (b : Bite) (tag : Tag) (s : State) :
    let bind := (findRecord s.store.table tag).any fun r => r.state == .waiting
    let t := adopt b tag s
    t.seq = { s.seq with bite := some { b with tag := tag, unannounced := false } } ∧
    t.store = { s.store with table := if bind then enterRecord tag s.store.table else s.store.table } ∧
    SetsFlags s t s.clock (fun f => f == .substituted && !bind) ∧ KeepsReports s t := by
  intro bind t
  have ht : t = (setStickyIf (!bind) .substituted
      (s.setStore { s.store with table := if bind then enterRecord tag s.store.table else s.store.table })).setSeq
        { s.seq with bite := some { b with tag := tag, unannounced := false } } := by
    cases hfind : findRecord s.store.table tag <;> simp [t, adopt, bind, hfind]
  rw [ht]
  refine ⟨rfl, by simp, fun f => ?_, by simp [KeepsReports]⟩
  exact setsFlags_setStickyIf (!bind) .substituted _ f

/-- Settles O44. -/
theorem unannouncedBiteAdopts : Obligations.UnannouncedBiteAdopts := by
  intro s fin sender tag age b h hf hb hun bind
  have hadopt : upstreamHead tag age (Heard s fin) = adopt b tag (Heard s fin) :=
    upstreamHead_of_unannounced (s := Heard s fin) hb hun
  obtain ⟨hseq, hstore, hflags, hreports⟩ := adopt_spec b tag (Heard s fin)
  exact ⟨_, (exec_upstreamHeadOn h hf fin tag age).trans (congrArg _ hadopt), hseq, hstore, hflags, hreports, by simp, by simp,
    by simp, by simp, by simp, by simp, by simp, by simp, by simp, by simp [SameQueue]⟩

/-- Settles O45. -/
theorem downstreamHeadCouples : Obligations.DownstreamHeadCouples := by
  intro s fin sender tag age b h hs hb
  have hcouple : downstreamHead tag (Heard s fin) = couple b tag (Heard s fin) :=
    downstreamHead_of_threading (s := Heard s fin) hs hb
  refine ⟨_, (exec_downstreamHeadOn h hs fin tag age).trans (congrArg _ hcouple), rfl, ?_, fun f => ?_, by simp [KeepsReports, couple],
    by simp, by simp, by simp, by simp, by simp, by simp, by simp, by simp, by simp, by simp [SameQueue]⟩
  · have htag : (setStickyIf (tag != b.tag) .tagMismatch (Heard s fin)).biteTag = b.tag := by
      simp [biteTag_eq, hb]
    cases hl : s.lp.state <;> simp [couple, raiseLooper, hl, State.measuredAngle, htag]
  · have hmark (u : State) (b : Bite) : (couple b tag u).stickyMark f =
        (setStickyIf (tag != b.tag) .tagMismatch u).stickyMark f := stickyMark_of_rep (by simp [couple]) f
    rw [hmark]
    exact setsFlags_setStickyIf (tag != b.tag) .tagMismatch (Heard s fin) f

end Notices

section OtherFrames

/-- Settles O46. -/
theorem framesWithoutEffect : Obligations.FramesWithoutEffect := by
  intro s fin sender tag age strayed
  refine ⟨fun h hs => ?_, fun h => ?_, fun h => ?_, fun h => ?_, fun h => ?_, fun h => ?_⟩
  · exact exec_of_stray rfl h.1 ⟨h.2.1, .inr (.inr (.inr ⟨h.2.2, rfl, hs⟩))⟩
  · have hrole : (Heard s fin).roleOf .tailOff sender = some .downstream := h.2.2
    have hact : tailOffAction sender tag age (Heard s fin) = Heard s fin := by simp [tailOffAction, hrole]
    exact (congrArg _ (receiveFrame_of_delivers h nofun rfl fin (tailOffAction sender tag age))).trans (congrArg _ hact)
  · rcases h with h | h <;> exact congrArg _ (receiveFrame_of_delivers h nofun rfl fin id)
  · rcases h with h | h <;> exact congrArg _ (receiveFrame_of_delivers h nofun rfl fin id)
  · exact exec_of_stray rfl h.1 ⟨h.2.1, .inl ⟨h.2.2, by simp⟩⟩
  · exact exec_of_stray rfl h.1 ⟨h.2.1, .inl ⟨h.2.2, by simp⟩⟩

/-- Settles O47. -/
theorem cascadeFrameReplacesView : Obligations.CascadeFrameReplacesView := by
  intro s fin sender tag factor speed flags v
  have acts {role : Role} (h : Delivers s .cascade sender role) (hopen : role ≠ .closed)
      (hfit : misfit s .cascade role = false) : exec (.cascadeDelivered fin sender tag factor speed flags) s =
        .next (cascadeAction sender v (Heard s fin)) :=
    congrArg _ (receiveFrame_of_delivers h hopen hfit fin (cascadeAction sender v))
  refine ⟨fun h => ?_, fun h => ?_, fun h => ?_⟩
  · have hrole : (Heard s fin).roleOf .cascade sender = some .upstream := h.2.2
    simp [acts h nofun rfl, cascadeAction, hrole]
  · have hrole : (Heard s fin).roleOf .cascade sender = some .downstream := h.2.2
    simp [acts h nofun rfl, cascadeAction, hrole]
  · exact exec_of_stray rfl h.1 ⟨h.2.1, .inl ⟨h.2.2, by simp⟩⟩

end OtherFrames

end Sys2Proof.Machine
end


section
/-! PROOFS. The frames of the setup stations that close a schedule, restart a station and arm a drill (R97 to R100, R123, R180).
O49, O51 and O52 are assembled from these. -/

namespace Sys2Proof.Machine

section Closing

variable {s : State} {tag : Tag} {r : Record}

theorem exec_setupClose_delivered {sender : BitVec 5} (h : Delivers s .setupClose sender .setup) (fin : FrameEnd) (tag : Tag) :
    exec (.setupClose fin sender tag) s = .next (close tag (Heard s fin)) :=
  congrArg _ (receiveFrame_of_delivers h nofun rfl fin _)

theorem falling_iff (v : Values) (n : Nat) : strictlyDecreasing v n = true ↔ ∀ k, k < n → v.hAt (k + 1) < v.hAt k := by
  simp [strictlyDecreasing]

theorem findRecord_of_unknown {table : List Record} (h : ∀ r ∈ table, r.tag ≠ tag) : findRecord table tag = none := by
  have hfind : table.find? (fun r => r.tag == tag) = none := List.find?_eq_none.mpr (by simpa using h)
  simp [findRecord, hfind]

/-- R97: the checks of a close in their order. -/
theorem closeOutcome_of_bad (h : tag = 0 ∨ ¬strictlyDecreasing s.store.staging s.ldr.image.n = true) :
    s.closeOutcome tag = .refused := by
  unfold State.closeOutcome
  rcases h with h | h
  · rw [if_pos h]
  · simp [h]

theorem closeOutcome_of_known (h0 : tag ≠ 0) (hd : strictlyDecreasing s.store.staging s.ldr.image.n = true)
    (hfind : findRecord s.store.table tag = some r) :
    s.closeOutcome tag = if r.state = .entered then .refused else .replaced := by
  unfold State.closeOutcome
  rw [if_neg h0, if_neg (by simp [hd]), hfind]

theorem closeOutcome_of_unknown (h0 : tag ≠ 0) (hd : strictlyDecreasing s.store.staging s.ldr.image.n = true)
    (hfree : ∀ r ∈ s.store.table, r.tag ≠ tag) :
    s.closeOutcome tag = if 3 ≤ s.store.table.length then .refusedFull else .appended := by
  unfold State.closeOutcome
  rw [if_neg h0, if_neg (by simp [hd]), findRecord_of_unknown hfree]

theorem close_of_refused (h : s.closeOutcome tag = .refused) : close tag s = setSticky .closeRefused s := by
  simp [close, h]

theorem close_of_full (h : s.closeOutcome tag = .refusedFull) :
    close tag s = setSticky .scheduleFull (setSticky .closeRefused s) := by
  simp [close, h]

theorem close_of_replaced (h : s.closeOutcome tag = .replaced) : close tag s =
    s.setStore { s.store with table := s.store.table.map fun r => if r.tag = tag then s.closedRecord tag else r } := by
  simp [close, h, replaceRecord]

theorem biteAwaits_eq (h0 : tag ≠ 0) : s.biteAwaits tag =
    ((s.seq.bite.any fun b => b.tag == tag) && !(s.store.table.any fun r => r.state == .entered)) := by
  unfold State.biteAwaits
  have h0' : (tag != 0) = true := bne_iff_ne.mpr h0
  cases s.seq.bite <;> simp only [h0', Bool.and_true, Option.any_some, Option.any_none, Bool.false_and]

/-- R98: a new record is bound at once to a bite that awaits it. -/
theorem close_of_appended (h : s.closeOutcome tag = .appended) (hfree : ∀ r ∈ s.store.table, r.tag ≠ tag) : close tag s =
    s.setStore { s.store with table := s.store.table ++
      [if s.biteAwaits tag then { s.closedRecord tag with state := .entered } else s.closedRecord tag] } := by
  have happend : close tag s = appendRecord tag s := by simp [close, h]
  have henter : enterRecord tag (s.store.table ++ [s.closedRecord tag]) =
      s.store.table ++ [{ s.closedRecord tag with state := .entered }] := enterRecord_append rfl hfree nofun
  rw [happend, appendRecord, henter]
  cases s.biteAwaits tag <;> rfl

/-- Settles O49: each outcome by the first check that decides it. -/
theorem closeIsCheckedInOrder : Obligations.CloseIsCheckedInOrder := by
  intro s fin sender tag v n i falling table record binds kept refused h hlaw
  let u := Heard s fin
  have hrecord : u.closedRecord tag = record := rfl
  have keptStore (x : Store) (hx : x.staging = v) : kept (u.setStore x) := by
    simp [kept, u, KeepsReports, SameQueue, hx]
  have refusedOnce : refused (setSticky .closeRefused u) fun f => f == .closeRefused :=
    ⟨by simp [table, u], (setsFlags_heard s fin).trans (setsFlags_setSticky .closeRefused u),
      by simp [kept, u, KeepsReports, SameQueue, v]⟩
  refine ⟨_, exec_setupClose_delivered h fin tag, fun hbad => ?_, fun h0 hd r hr htag hstate => ?_,
    fun h0 hd r hr htag hstate => ?_, fun h0 hd hfree hlen => ?_, fun h0 hd hfree hlen => ?_⟩
  · rw [close_of_refused (closeOutcome_of_bad (s := u) (hbad.imp_right (mt (falling_iff v n).mp)))]
    exact refusedOnce
  · have hfind : findRecord u.store.table tag = some r := htag ▸ findRecord_of_mem hlaw hr
    have hout := closeOutcome_of_known (s := u) h0 ((falling_iff v n).mpr hd) hfind
    rw [close_of_refused (hout.trans (if_pos hstate))]
    exact refusedOnce
  · have hfind : findRecord u.store.table tag = some r := htag ▸ findRecord_of_mem hlaw hr
    have hout := closeOutcome_of_known (s := u) h0 ((falling_iff v n).mpr hd) hfind
    rw [close_of_replaced (hout.trans (if_neg (by simp [hstate])))]
    exact ⟨rfl, by simp [u], keptStore _ rfl⟩
  · have hout := closeOutcome_of_unknown (s := u) h0 ((falling_iff v n).mpr hd) hfree
    rw [close_of_full (hout.trans (if_pos hlen.ge))]
    have hflags := ((setsFlags_heard s fin).trans (setsFlags_setSticky .closeRefused u)).trans
      (setsFlags_setSticky .scheduleFull (setSticky .closeRefused u))
    exact ⟨by simp [table, u], hflags, by simp [kept, u, KeepsReports, SameQueue, v]⟩
  · have hout := closeOutcome_of_unknown (s := u) h0 ((falling_iff v n).mpr hd) hfree
    have hbinds : u.biteAwaits tag = binds := biteAwaits_eq (s := u) h0
    rw [close_of_appended (hout.trans (if_neg hlen.not_ge)) hfree, hbinds]
    exact ⟨rfl, by simp [u], keptStore _ rfl⟩

end Closing

section Restarts

variable {s : State} {sender : BitVec 5} {target : Byte} {fin : FrameEnd}

theorem addressed_iff (s : State) (target : Byte) : s.addressed target = true ↔ target = 0 ∨ target.toNat = s.position := by
  simp [State.addressed]

theorem exec_restart_delivered (h : Delivers s .restart sender .setup) (fin : FrameEnd) (target : Byte) :
    exec (.restart fin sender target) s = .next (restartStation target (Heard s fin)) :=
  congrArg _ (receiveFrame_of_delivers h nofun rfl fin _)

/-- R165, R180: an UNCONFIGURED station takes a RESTART of a sender 24..31. -/
theorem exec_restart_unconfigured (hl : Listens s) (hu : s.seq.stand = .unconfigured) (hsender : 24 ≤ sender.toNat)
    (fin : FrameEnd) (target : Byte) :
    exec (.restart fin sender target) s = .next (restartStation target (Heard s fin)) := by
  have hhears : hearsSound (s.setClock fin.now) = true := (hearsSound_iff _).mpr hl
  have hfate : fate (s.setClock fin.now) .restart sender = .delivered := by simp [fate, hu, fromSetup, hsender]
  have hrun : exec (.restart fin sender target) s =
    .next (receiveFrame .restart fin sender (restartStation target) (s.setClock fin.now)) := rfl
  rw [hrun, receiveFrame, if_pos hhears, hfate]

theorem restartStation_of_configured (ha : s.addressed target = true) (hu : s.seq.stand ≠ .unconfigured) :
    restartStation target s = enterHoldIfActive (restartLink (restartStand s)) := by
  rw [restartStation, if_pos ha, if_neg hu]

theorem restartStation_of_unconfigured (ha : s.addressed target = true) (hu : s.seq.stand = .unconfigured) :
    restartStation target s = restartLink s := by
  rw [restartStation, if_pos ha, if_pos hu]

theorem restartLink_stickySet (s : State) (f : StickyFlag) : (restartLink s).stickySet f = false := by
  cases f <;> rfl

/-- R132: a restarted station starts into the hold where the filtered line is active, and has nothing to clear for it. -/
theorem enterHoldIfActive_restarted (s : State) : enterHoldIfActive (restartLink (restartStand s)) =
    (restartLink (restartStand s)).setSeq { stand := if s.hold.filtered then .hold else .empty, bite := none } := by
  cases hf : s.hold.filtered with
  | false =>
    rw [enterHoldIfActive, if_neg (by simp [restartLink, hf])]
    rfl
  | true =>
    rw [enterHoldIfActive, if_pos (by simp [restartLink, hf, StandState.tracks])]
    have hlp : (holdLowerLooper (restartLink (restartStand s)).biteTag (restartLink (restartStand s))).lp =
        (restartLink (restartStand s)).lp := by
      cases hl : s.atLast <;> simp [holdLowerLooper, restartLink, hl]
    have hslots : mapSlots clearAtHold freeSlots = freeSlots := rfl
    apply State.eq_of_parts <;> simp [hlp]
    all_goals simp [restartLink, hslots, retireEntered]

/-- Settles O51. -/
theorem restartStartsAfresh : Obligations.RestartStartsAfresh := by
  intro s fin sender target addressed fresh
  refine ⟨fun h ha => ?_, fun hl hu hsender ha => ?_, fun ha h => ?_⟩
  · have hstation : restartStation target (Heard s fin) = enterHoldIfActive (restartLink (restartStand (Heard s fin))) :=
      restartStation_of_configured ((addressed_iff _ _).mpr ha) h.2.1
    refine ⟨_, (exec_restart_delivered h fin target).trans (congrArg _ (hstation.trans (enterHoldIfActive_restarted _))), ?_⟩
    refine ⟨⟨by simp [restartLink], by simp [restartLink], fun f => restartLink_stickySet (restartStand (Heard s fin)) f, rfl, rfl,
      by simp [restartLink],
      by simp [restartLink, SameQueue]⟩, rfl, rfl, rfl, ?_⟩
    simp [restartLink, State.atLast, State.position]
  · have hstation : restartStation target (Heard s fin) = restartLink (Heard s fin) :=
      restartStation_of_unconfigured ((addressed_iff _ _).mpr ha) hu
    refine ⟨_, (exec_restart_unconfigured hl hu hsender fin target).trans (congrArg _ hstation), ?_⟩
    refine ⟨⟨rfl, rfl, restartLink_stickySet _, rfl, rfl, rfl, rfl, rfl⟩, ⟨rfl, rfl, rfl, rfl, rfl, rfl, rfl, rfl⟩, rfl⟩
  · have hstation : restartStation target (Heard s fin) = Heard s fin := if_neg (mt (addressed_iff _ _).mp ha)
    rcases h with h | ⟨hl, hu, hsender⟩
    · exact (exec_restart_delivered h fin target).trans (congrArg _ hstation)
    · exact (exec_restart_unconfigured hl hu hsender fin target).trans (congrArg _ hstation)

end Restarts

section Drills

/-- Settles O52: the rows of R123 one after the other. -/
theorem drillRowsInOrder : Obligations.DrillRowsInOrder := by
  intro s fin sender target kind strayed addressed h
  have hrun : exec (.drill fin sender target kind) s = .next (takeDrill target kind (Heard s fin)) :=
    congrArg _ (receiveFrame_of_delivers h nofun rfl fin _)
  have hstray : countStray (Heard s fin) = strayed := rfl
  have haddr : (Heard s fin).addressed target = true ↔ addressed := addressed_iff (Heard s fin) target
  rw [hrun]
  refine ⟨fun hc => ?_, fun hc ha => ?_, fun hc ha hk => ?_, fun hc ha hk hs hd => ?_, fun hc ha hk hs => ?_,
    fun hc ha h1 h2 => ?_⟩
  · simp [takeDrill, hc, hstray]
  · have ha' : (Heard s fin).addressed target = false := Bool.eq_false_iff.mpr (mt haddr.mp ha)
    simp [takeDrill, hc, ha']
  all_goals have ha' := haddr.mpr ha
  · simp [takeDrill, hc, ha', hk]
  · simp [takeDrill, hc, ha', hk, hs, hd]
  · simp [takeDrill, hc, ha', hk, hs]
  · have h1' : kind ≠ 1#8 := h1
    have h2' : kind ≠ 2#8 := h2
    simp [takeDrill, hc, ha', h1', h2', hstray]

end Drills

end Sys2Proof.Machine
end


section
/-! PROOFS. The recessive bits that end JOINING and OFF-LINK, the line's idle and the start bit (R145, R146, R153, R157, R162, R171,
R172, R174). O55 and O60 are assembled from these. -/

namespace Sys2Proof.Machine

section Counting

theorem spanDone_eq (now : Instant) (e : ErrorConfinement) : e.spanDone now =
    if 64 ≤ e.spans + 1 then { e with
      spanBits := 0, spanAt := now, spans := e.spans + 1, txErrors := 0, rxErrors := 0, link := .active, silentTo := some now }
    else { e with spanBits := 0, spanAt := now, spans := e.spans + 1 } := rfl

variable {s : State} {now : Instant}

/-- R171, R174: the three commands, each with the condition that it acts on. -/
theorem execJoiningEnd_eq (s : State) (now : Instant) : exec (.joiningEnd now) s =
    .next (if s.ldr.phase = .running ∧ s.ec.link = .joining ∧ 16 ≤ (s.setClock now).joinBits then
      (s.setClock now).setEc { s.ec with
        link := linkByCounts s.ec.txErrors s.ec.rxErrors, joinBits := 16, joinAt := now, silentTo := some now }
      else s.setClock now) := rfl

theorem execOffLinkIdleSpan_eq (s : State) (now : Instant) : exec (.offLinkIdleSpan now) s =
    .next (if s.ec.link = .offLink ∧ 16 ≤ (s.setClock now).spanBits then (s.setClock now).setEc (s.ec.spanDone now)
      else s.setClock now) := rfl

theorem execOffLinkRecovery_eq (s : State) (now : Instant) : exec (.offLinkRecovery now) s =
    .next (if s.ec.link = .offLink ∧ 63 ≤ s.ec.spans ∧ 16 ≤ (s.setClock now).spanBits then
      (s.setClock now).setEc (s.ec.spanDone now) else s.setClock now) := rfl

/-- Settles O60: the two counts by the run on the line and by the time since they began. -/
theorem joiningAndRecovery : Obligations.JoiningAndRecovery := by
  intro s now bit since inFrame run joined span
  have hrun : (s.setClock now).recessiveRun = run := recessiveRun_at s now
  have hjoin : (s.setClock now).joinBits = joined := by
    rw [State.joinBits, hrun]
    rfl
  have hspan : (s.setClock now).spanBits = span := by
    rw [State.spanBits, hrun]
    rfl
  refine ⟨fun hp hl hj => ?_, fun h => ?_, fun hl hb hn => ?_, fun hl hb hn => ?_, fun h => ⟨?_, ?_⟩, fun hn => ?_⟩
  · rw [execJoiningEnd_eq, hjoin, if_pos ⟨hp, hl, hj⟩]
    rfl
  · rw [OnlyClock, execJoiningEnd_eq, hjoin,
      if_neg fun ⟨hp, hl, hj⟩ => h.elim (absurd hp) fun h => h.elim (absurd hl) hj.not_gt]
    rfl
  · rw [execOffLinkIdleSpan_eq, hspan, if_pos ⟨hl, hb⟩, spanDone_eq, if_neg (by omega)]
  · rw [execOffLinkIdleSpan_eq, execOffLinkRecovery_eq, hspan, if_pos ⟨hl, hb⟩, if_pos ⟨hl, by omega, hb⟩, spanDone_eq, if_pos hn]
    exact ⟨rfl, rfl⟩
  · rw [OnlyClock, execOffLinkIdleSpan_eq, hspan, if_neg fun ⟨hl, hb⟩ => h.elim (absurd hl) hb.not_gt]
    rfl
  · rw [OnlyClock, execOffLinkRecovery_eq, hspan, if_neg fun ⟨hl, _, hb⟩ => h.elim (absurd hl) hb.not_gt]
    rfl
  · rw [OnlyClock, execOffLinkRecovery_eq, if_neg fun ⟨_, hm, _⟩ => absurd hm (by omega)]
    rfl

end Counting

section StartBit

variable {s : State} {now : Instant}

theorem execLineIdle_eq (s : State) (now : Instant) (quiet : QuietLine) : exec (.lineIdle now quiet) s =
    .next (if (hears (s.setClock now) && !s.link.soundSoFar && decide (quiet.bits ≤ (s.setClock now).recessiveBits)) = true
      then readRecessive quiet (s.setClock now) else s.setClock now) := rfl

/-- R145: the clock counts recessive bits on a line without a frame, or with one in error. -/
theorem recessiveBits_counted (ha : Attends s) (hr : s.link.soundSoFar = false) (now : Instant) :
    (s.setClock now).recessiveBits = s.link.recessive + elapsed now s.link.recessiveAt / bitTime s.ldr.rateCode :=
  recessiveBits_free (s := s.setClock now) ha hr

theorem soundSoFar_of_reception {r : Reception} (hr : s.link.reception = some r) (he : r.error = false) :
    s.link.soundSoFar = true := by
  simp [Link.soundSoFar, hr, he]

theorem mayContest_iff (s : State) : mayContest s = true ↔ s.ldr.phase = .running ∧ s.ec.link.sends = true ∧
    s.link.idle = true ∧ s.link.attempt = none ∧ (chooseFrame s.txq.slots).isSome = true := by
  simp [mayContest, anyPending, and_assoc]

theorem execContestStart_eq (h : mayContest (s.setClock now) = true) :
    exec (.contestStart now) s = .next (startContest (s.setClock now)) := congrArg Host.Outcome.next (if_pos h)

theorem execFrameStart_contest (h : mayContest (s.setClock now) = true) (frame : List Bool) :
    exec (.frameStart ⟨now, frame⟩) s = .next (startContest (s.setClock now)) := congrArg Host.Outcome.next (if_pos h)

theorem execFrameStart_receiver (h : ¬mayContest (s.setClock now) = true) (hh : hears (s.setClock now) = true)
    (frame : List Bool) :
    exec (.frameStart ⟨now, frame⟩) s = .next (startReception 0 frame (s.setClock now)) := by
  have hrun : exec (.frameStart ⟨now, frame⟩) s = .next (if mayContest (s.setClock now) then startContest (s.setClock now)
    else if hears (s.setClock now) then startReception 0 frame (s.setClock now) else s.setClock now) := rfl
  rw [hrun, if_neg h, if_pos hh]

/-- R157: the drill stays armed until the last check bit of the attempt has been sent. -/
theorem flawStillArmed_of_attempt {a : Attempt} (ha : s.link.attempt = some a) (hf : a.flawed = s.link.flawArmed)
    (hb : a.breaking = false) (h0 : a.bits = 0) (now : Instant) : (s.setClock now).flawStillArmed =
      (s.link.flawArmed && decide (elapsed now a.bitsAt / bitTime s.ldr.rateCode < checkWordEnd s a)) := by
  have hsent : (s.setClock now).flawSent =
      (s.link.flawArmed && (s.link.flawArmed && decide (checkWordEnd s a ≤ elapsed now a.bitsAt / bitTime s.ldr.rateCode))) := by
    rw [flawSent_eq, flawSentBy, ha, Option.any_some, hf, hb, h0]
    simp
  rw [State.flawStillArmed, hsent]
  cases hf' : s.link.flawArmed
  · simp [hf']
  · simp [hf', ← decide_not]

theorem ageReached_eq (now : Instant) (x : Slot) : ageReached now x =
    (x.frame.event.map fun e => decide (65535 ≤ roundNat (elapsed now e) 10)).getD false := by
  unfold ageReached
  cases x.frame.event <;> rfl

/-- R146, R153, R157, R162: the start bit of a frame that has been chosen. -/
theorem startContest_of_choice {i : Fin 4} {x : Slot} (hc : chooseFrame s.txq.slots = some (i, x)) : startContest s =
    (s.setTxq { s.txq with slots := s.txq.slots.set i (some { markSaturated s.clock x with inTransmission := true }) }).setLink
      { s.link with
        recessive := 0, recessiveAt := s.clock, carried := 0, idle := false, reception := none, rejectDriven := false
        attempt := some { slot := i, bits := 0, bitsAt := s.clock, age := attemptAge s.clock x
                          check := if s.link.flawArmed then ~~~(crc (x.frame.content s.sender (attemptAge s.clock x)))
                            else crc (x.frame.content s.sender (attemptAge s.clock x))
                          flawed := s.link.flawArmed, breaking := false } } := by
  unfold startContest
  rw [hc]
  rfl

/-- R149: the length is known as soon as 17 bits after the start bit have been taken, and not before. -/
theorem reckonedLength_take (bits : List Bool) (n : Nat) :
    reckonedLength (bits.take n) = if 17 ≤ n then reckonedLength bits else none := by
  rw [reckonedLength_eq, reckonedLength_eq, List.length_take]
  by_cases hn : 17 ≤ n
  · have hget {k : Nat} (hk : k < 17) : (bits.take n).getD k false = bits.getD k false := by
      simp only [List.getD_eq_getElem?_getD, List.getElem?_take_of_lt (show k < n by omega)]
    rw [hget (by omega), hget (by omega), hget (by omega), hget (by omega)]
    simp [hn]
  · rw [if_neg hn, if_neg (by omega)]

/-- Settles O55. -/
theorem idleAndContest : Obligations.IdleAndContest := by
  intro s now bits before i x frame bit counted ha
  have hhears : hears (s.setClock now) = true := (hears_iff _).mpr ha
  refine ⟨fun hr hb => ?_, fun h => ?_, fun hidle hsends hc => ?_, fun h => ?_⟩
  · have hs : s.link.soundSoFar = false := (soundSoFar_iff _).mpr hr
    have hcount : (s.setClock now).recessiveBits = counted := recessiveBits_counted ha hs now
    rw [execLineIdle_eq, hcount, if_pos (by simpa [hhears, hs] using hb)]
    rfl
  · rw [OnlyClock, execLineIdle_eq, if_neg]
    · rfl
    · intro hcond
      simp only [Bool.and_eq_true, Bool.not_eq_true', decide_eq_true_eq] at hcond
      obtain ⟨⟨-, hs⟩, hb⟩ := hcond
      rcases h with h | ⟨r, hr, he⟩
      · have hcount : (s.setClock now).recessiveBits = counted := recessiveBits_counted ha hs now
        omega
      · simp [soundSoFar_of_reception hr he] at hs
  · intro saturated age check t checkEnds
    have hmay : mayContest (s.setClock now) = true := (mayContest_iff _).mpr ⟨ha.1, hsends, hidle, ha.2, by simp [hc]⟩
    have hsat : (markSaturated now x).saturated = saturated := congrArg (x.saturated || ·) (ageReached_eq now x)
    have hage : attemptAge now x = age := by
      unfold attemptAge
      rw [hsat]
      rfl
    have hmark : { markSaturated now x with inTransmission := true } = { x with saturated := saturated, inTransmission := true } := by
      rw [← hsat]
      rfl
    have ht : startContest (s.setClock now) = t := by
      have hsender : (s.setClock now).sender = s.sender := rfl
      rw [startContest_of_choice (s := s.setClock now) hc, setClock_clock, hmark, hage, hsender]
      rfl
    have hend (a : Attempt) (hat : t.link.attempt = some a) : checkWordEnd t a = checkEnds := by
      obtain rfl := Option.some.inj hat
      simp [t, checkEnds]
    refine ⟨(execContestStart_eq hmay).trans (congrArg _ ht), (execFrameStart_contest hmay frame).trans (congrArg _ ht),
      fun later => ?_, fun a hat => ?_⟩
    · rw [flawStillArmed_of_attempt (s := t) rfl rfl rfl rfl later, hend _ rfl]
      rfl
    · rw [checkWordSentAt, hend a hat]
      obtain rfl := Option.some.inj hat
      show now + BitVec.ofNat 32 (checkEnds * bit) - BitVec.ofNat 32 (0 * bit) = _
      rw [Nat.zero_mul]
      exact BitVec.sub_zero _
  · intro length t
    have hmay : ¬mayContest (s.setClock now) = true := by
      rw [mayContest_iff]
      rintro ⟨-, hsends, hidle, -, hc⟩
      rcases h with h | h | h
      · cases h.symm.trans hidle
      · cases h.symm.trans hsends
      · simp [h] at hc
    have hlength : reckonedLength frame = length := reckonedLength_eq frame
    refine ⟨execFrameStart_receiver hmay hhears frame, fun later => ?_⟩
    intro taken
    have htaken : (t.setClock later).bitsTaken = taken := by
      have hr : (t.setClock later).bitsTaken = min (captureBits ((reckonedLength frame).getD 8)) (0 + elapsed later now / bit) := rfl
      rw [hr, hlength, captureBits, Nat.zero_add]
    have hbits : (t.setClock later).takenBits = (false :: frame).take taken := by rw [← htaken]; rfl
    refine ⟨htaken, hbits, ?_⟩
    rw [State.lengthTaken, hbits, List.drop_take, List.drop_one, List.tail_cons, reckonedLength_take, hlength]
    by_cases h18 : 18 ≤ taken
    · rw [if_pos h18, if_pos (by omega)]
    · rw [if_neg h18, if_neg (by omega)]

end StartBit

end Sys2Proof.Machine
end


section
/-! PROOFS. Frames rejected and frames found in error (R145, R149, R150, R152, R169, R170), the lost contest and the bit error (R147, R148).
O54 and O57 are assembled from these. -/

namespace Sys2Proof.Machine

section Discards

variable {s : State} {now : Instant}

theorem trailingRecessive_slot {first second : Bool} (h : (first && second) = false) :
    trailingRecessive (slotBits ⟨first, second⟩) = if second then 1 else 0 := by
  revert h
  cases first <;> cases second <;> decide

theorem execFrameRejected_eq (s : State) (fin : RejectedEnd) : exec (.frameRejected fin) s =
    .next (if (hearsSound (s.setClock fin.now) && !(fin.slot.first && fin.slot.second)) = true
      then endReception false (trailingRecessive (slotBits fin.slot)) (s.setClock fin.now) else s.setClock fin.now) := rfl

/-- R149: what a receiver does that has found an error in the bits it has read. -/
theorem execReceiveError_eq (ha : Attends s) {read : ReadFrame} {e : RxError} (h : receiverFinds read.bits = some e) :
    exec (.receiveError now read) s = .next (if frameRead read.bits = true then
      (endInError (s.setClock now).drivesSlot read (s.setClock now)).setEc s.ec.receiveError
      else holdError read (s.setClock now)) := by
  have hhears : hears (s.setClock now) = true := (hears_iff _).mpr ha
  have hrun : exec (.receiveError now read) s = execReceiveError now read s := rfl
  rw [hrun]
  simp only [execReceiveError, hhears, h, Option.isSome_some, Bool.and_self, if_true]
  refine congrArg Host.Outcome.next ?_
  split <;> simp [endInError, countRead, endReception]

/-- R145, R149: the end of a frame in error touches the Link Controller alone. -/
theorem endInError_eq (drives : Bool) (read : ReadFrame) (s : State) :
    endInError drives read s = s.setLink (endInError drives read s).link := by
  simp [endInError, countRead, endReception]

theorem holdError_eq (read : ReadFrame) (s : State) : holdError read s = s.setLink { s.link with
    recessive := min read.past (trailingRecessive read.bits), recessiveAt := s.clock
    carried := trailingRecessive read.bits - min read.past (trailingRecessive read.bits)
    rejectDriven := false, extraWait := false
    idle := s.link.idleInError || tenRecessive (read.bits.drop (read.bits.length - read.past))
    reception := some { bits := read.bits.length + 1, bitsAt := s.clock
                        frame := read.bits ++ s.link.frameSoFar.drop read.bits.length, error := true } } := by
  simp [holdError, countRead, inReception]

theorem tenRecessive_eq (bits : List Bool) :
    tenRecessive bits = bits.tails.any fun rest => decide (10 ≤ (rest.takeWhile id).length) := rfl

theorem idleInError_eq (l : Link) : l.idleInError = (l.idle && l.reception.any Reception.error) :=
  Bool.and_comm ..

theorem slotRead_eq (drives first second : Bool) : slotRead drives ⟨first, second⟩ = [first && !drives, second && !drives] := by
  cases drives <;> simp [slotRead, slotBits]

/-- R145: the run of recessive bits that a frame in error ends with, its reject slot included. -/
theorem trailingRecessive_read (drives first second : Bool) (bits : List Bool) :
    trailingRecessive (bits ++ slotRead drives ⟨first, second⟩) =
      if !second || drives then 0 else if !first then 1 else trailingRecessive bits + 2 := by
  cases drives with
  | true => simp [trailingRecessive_driven]
  | false =>
    rw [trailingRecessive_undriven]
    cases second <;> cases first <;> rfl

theorem vetoes_eq (l : LinkState) : l.vetoes = (l == .active || l == .warned) := by
  cases l <;> rfl

/-- Settles O54. -/
theorem discardedFrames : Obligations.DiscardedFrames := by
  intro s now bits first second past e ha reckoned trailing idleAt bit joinedWithin vetoes slotRun read rec'
  refine ⟨fun hl hslot => ?_, fun hslot => ?_, fun he hshort => ?_, fun l he hlen hl => ?_⟩
  · have hhears : hearsSound (s.setClock now) = true := (hearsSound_iff _).mpr hl
    rw [execFrameRejected_eq, if_pos (by simp [hhears, hslot]), trailingRecessive_slot hslot]
    rfl
  · rw [OnlyClock, execFrameRejected_eq, if_neg (by simp [hslot])]
    rfl
  · have hnot : ¬frameRead bits = true := by
      rw [frameRead_iff]
      rintro ⟨l, hl, hlen⟩
      exact absurd hlen (hshort l ((reckonedLength_eq bits).symm.trans hl)).not_ge
    rw [execReceiveError_eq ha he, if_neg hnot, holdError_eq, idleInError_eq]
    rfl
  · have hread : frameRead bits = true := (frameRead_iff bits).mpr ⟨l, (reckonedLength_eq bits).trans hlen, hl⟩
    have hdrives : (s.setClock now).drivesSlot = vetoes := by
      rw [State.drivesSlot, vetoes_eq]
      rfl
    have hec : s.ec.receiveError = if s.ec.link = .offLink then s.ec else
        { s.ec with
          rxErrors := rec'
          link := if s.ec.link = .joining then .joining
            else if 128 ≤ s.ec.txErrors ∨ 128 ≤ rec' then .muted
            else if 64 ≤ s.ec.txErrors ∨ 64 ≤ rec' then .warned else .active } := by
      rw [receiveError_eq]
      by_cases ho : s.ec.link = .offLink
      · rw [if_pos ho, if_pos ho]
      · rw [if_neg ho, if_neg ho, follow_of_onLink (by exact ho)]
        rfl
    rw [execReceiveError_eq ha he, if_pos hread, endInError_eq, endInError_link, hdrives, trailingRecessive_read, slotRead_eq,
      idleInError_eq, hec]
    rfl

end Discards

section Pending

variable {v : Slots} {i : Fin 4} {x : Slot}

theorem newerPending_iff (i : Fin 4) (k : FrameKind) (v : Slots) : newerPending i k v = true ↔
    (k = .cascade ∨ k = .status) ∧ ∃ (j : Fin 4) (y : Slot),
      v[j] = some y ∧ j ≠ i ∧ y.inTransmission = false ∧ y.frame.kind = k := by
  simp only [newerPending, Bool.and_eq_true, superseding_iff, List.any_eq_true, bne_iff_ne, holds_pendingOfKind]
  refine and_congr_right fun _ => ⟨?_, ?_⟩
  · rintro ⟨j, -, hj, y, hy, hp⟩
    exact ⟨j, y, hy, hj, hp⟩
  · rintro ⟨j, y, hy, hj, hp⟩
    exact ⟨j, mem_places j, hj, y, hy, hp⟩

theorem backToPending_of_freed (h : x.cleared = true ∨ newerPending i x.frame.kind v = true) : backToPending i x v = none := by
  unfold backToPending
  exact if_pos (by simpa using h)

theorem backToPending_of_kept (hc : x.cleared = false) (hn : ¬newerPending i x.frame.kind v = true) :
    backToPending i x v = some { x with inTransmission := false } := by
  unfold backToPending
  exact if_neg (by simpa [hc] using hn)

end Pending

section Contest

variable {s : State} {now : Instant} {a : Attempt} {x : Slot}

theorem wire_of_attempt (ha : s.link.attempt = some a) (hx : s.txq.slots[a.slot] = some x) :
    s.wire = wireBits (x.frame.content s.sender a.age) a.check := by
  have h : s.txq.slots[a.slot.val] = some x := hx
  simp [State.wire, ha, h]

theorem slotLength_of_slot {i : Fin 4} (hx : s.txq.slots[i] = some x) : slotLength i s = x.frame.kind.length.toNat := by
  unfold slotLength
  rw [hx]

/-- R147: the bits at which a contest can be lost. -/
theorem sendsRecessiveInContest_iff (bits : Nat) (s : State) : sendsRecessiveInContest bits s = true ↔
    2 ≤ bits ∧ bits ≤ 9 ∧ s.wire.getD (bits - 1) false = true := by
  simp [sendsRecessiveInContest, and_assoc]

/-- R148: the bits that the transmitter tests. -/
theorem testsBit_iff (i : Fin 4) (bits : Nat) (s : State) : testsBit i bits s = true ↔
    1 ≤ bits ∧ bits ≤ 37 + 9 * slotLength i s ∧ ¬sendsRecessiveInContest bits s = true := by
  have hlast : lastMarker (slotLength i s) = 37 + 9 * slotLength i s := by
    simp only [lastMarker, captureBits]
    omega
  simp [testsBit, hlast, and_assoc]

/-- R147: the contest of an attempt that is not breaking. -/
theorem execArbitrationLost_eq (ha : s.link.attempt = some a) (hb : a.breaking = false) (now : Instant) (lost : LostBit) :
    exec (.arbitrationLost now lost) s = .next (if sendsRecessiveInContest lost.bits (s.setClock now) then
      startReception lost.bits (((s.setClock now).wire.take (lost.bits - 1)).drop 1 ++ [false] ++ lost.rest)
        ((settleLost a.slot (s.setClock now)).setLink
          { (settleLost a.slot (s.setClock now)).link with attempt := none })
      else s.setClock now) := by
  have hrun : exec (.arbitrationLost now lost) s = execArbitrationLost now lost s := rfl
  rw [hrun]
  simp [execArbitrationLost, ha, hb]

theorem execBitError_eq (ha : s.link.attempt = some a) (hb : a.breaking = false) (now : Instant) (bits : Nat) :
    exec (.bitError now bits) s = .next (if testsBit a.slot bits (s.setClock now) then
      (s.setClock now).setLink { s.link with recessive := 0, recessiveAt := now, carried := 0
                                             attempt := some { a with bits := bits, bitsAt := now, breaking := true } }
      else s.setClock now) := by
  have hrun : exec (.bitError now bits) s = execBitError now bits s := rfl
  rw [hrun]
  simp [execBitError, ha, hb]

/-- Settles O57. -/
theorem lostContestAndBitError : Obligations.LostContestAndBitError := by
  intro s now bits rest a x ha hb hx newer wire contest tested
  have hwire : (s.setClock now).wire = wire := wire_of_attempt (s := s.setClock now) ha hx
  have hcontest : sendsRecessiveInContest bits (s.setClock now) = true ↔ contest := by
    rw [sendsRecessiveInContest_iff, hwire]
  have htested : testsBit a.slot bits (s.setClock now) = true ↔ tested := by
    rw [testsBit_iff, hcontest, slotLength_of_slot (s := s.setClock now) hx]
  have hnewer : newerPending a.slot x.frame.kind s.txq.slots = true ↔ newer := newerPending_iff ..
  refine ⟨?_, fun hc => ?_, fun ht => ?_, fun hc => ?_, fun ht => ?_⟩
  · rw [sending_of_attempt ha hx, hb]
    rfl
  · have hrun := execArbitrationLost_eq ha hb now ⟨bits, rest⟩
    rw [if_pos (hcontest.mpr hc), settleLost_eq (s := s.setClock now) hx, hwire] at hrun
    refine ⟨_, hrun, ?_, rfl, fun hf => ?_, fun hclear hn => ?_, ⟨rfl, rfl, rfl, rfl, rfl, rfl, rfl, rfl⟩, rfl, rfl, rfl⟩
    · simp [startReception, inReception]
    · rw [backToPending_of_freed (v := (s.setClock now).txq.slots) (hf.imp_right hnewer.mpr)]
      rfl
    · rw [backToPending_of_kept (v := (s.setClock now).txq.slots) hclear (mt hnewer.mp hn)]
      rfl
  · let broken := (s.setClock now).setLink { s.link with
      recessive := 0, recessiveAt := now, carried := 0
      attempt := some { a with bits := bits, bitsAt := now, breaking := true } }
    have hsend : broken.sending = wire.take bits ++ List.replicate 8 false := sending_of_attempt (s := broken) rfl hx
    exact ⟨broken, (execBitError_eq ha hb now bits).trans (congrArg _ (if_pos (htested.mpr ht))), rfl, hsend⟩
  · rw [OnlyClock, execArbitrationLost_eq ha hb, if_neg (mt hcontest.mp hc)]
    rfl
  · rw [OnlyClock, execBitError_eq ha hb, if_neg (mt htested.mp ht)]
    rfl

end Contest

end Sys2Proof.Machine
end


section
/-! PROOFS. The end of an attempt (R151, R152, R157, R163, R169, R170, R173, R182): the drill it ends, the slot it settles, the counts and
the sticky flags. O58 and O59 are assembled from these. -/

namespace Sys2Proof.Machine

section Ending

variable {s : State} {now : Instant} {a : Attempt} {x : Slot}

/-- R157: at the end of the attempt the complemented check word has been sent whole. -/
def flawDone (s : State) (a : Attempt) (x : Slot) : Bool :=
  s.link.flawArmed && a.flawed && (!a.breaking || decide (36 + 9 * x.frame.kind.length.toNat ≤ a.bits))

theorem settleFlaw_eq (hx : s.txq.slots[a.slot] = some x) :
    settleFlaw a s = if flawDone s a x then fireFlaw a s else s := by
  have hend : checkEnd (slotLength a.slot s) = 36 + 9 * x.frame.kind.length.toNat := by
    rw [slotLength_of_slot hx, checkEnd, captureBits]
    omega
  unfold settleFlaw flawDone
  rw [hend]

/-- R152, R157: the capture and the drill at the end of an attempt. -/
theorem settleFlaw_capture (hx : s.txq.slots[a.slot] = some x) :
    let t := settleFlaw a (captureEnd a.breaking s)
    t.link = { s.link with
      capture := if a.breaking then s.link.capture else s.clock, flawArmed := s.link.flawArmed && !flawDone s a x } ∧
    (∀ f, t.stickyMark f = if f = .drillFired ∧ flawDone s a x = true then some ⟨checkWordSentAt s a, s.txq.nextOrder⟩
      else s.stickyMark f) ∧ KeepsReports s t := by
  intro t
  have hlink : (captureEnd a.breaking s).link = { s.link with capture := if a.breaking then s.link.capture else s.clock } := by
    unfold captureEnd
    split <;> rfl
  have hdone : flawDone (captureEnd a.breaking s) a x = flawDone s a x := by simp [flawDone, hlink]
  have hsent : (captureEnd a.breaking s).checkSentAt a = checkWordSentAt s a := by
    rw [checkSentAt_eq]
    simp [checkWordSentAt, checkWordEnd]
  have ht : t = if flawDone s a x then fireFlaw a (captureEnd a.breaking s) else captureEnd a.breaking s := by
    rw [← hdone]
    exact settleFlaw_eq (by simpa using hx)
  have hmark (f : StickyFlag) : (captureEnd a.breaking s).stickyMark f = s.stickyMark f := stickyMark_of_rep (by simp) f
  cases hd : flawDone s a x with
  | false =>
    rw [ht, hd]
    exact ⟨by simp [hlink], fun f => by simp [hmark], by simp [KeepsReports]⟩
  | true =>
    rw [ht, hd]
    exact ⟨by simp [hlink], fun f => by simp [hmark, hsent], by simp [KeepsReports]⟩

/-- R169, R170, R174: the counts after a failed attempt of a station that sends. -/
theorem attemptFailed_of_sends {e : ErrorConfinement} (h : e.link.sends = true) (ht : e.txErrors < 200) (now : Instant) :
    e.attemptFailed now = if 200 ≤ e.txErrors + 8 then
        { e with txErrors := e.txErrors + 8, link := .offLink, spanBits := 0, spanAt := now, spans := 0 }
      else { e with
        txErrors := e.txErrors + 8
        link := if 128 ≤ e.txErrors + 8 ∨ 128 ≤ e.rxErrors then .muted
          else if 64 ≤ e.txErrors + 8 ∨ 64 ≤ e.rxErrors then .warned else .active } := by
  have hsat : satAdd e.txErrors 8 = e.txErrors + 8 := if_neg (by omega)
  have ho : e.link ≠ .offLink := by
    rintro hl
    simp [hl, LinkState.sends] at h
  rw [attemptFailed_eq, if_neg ho, hsat]
  by_cases hcount : 200 ≤ e.txErrors + 8
  · rw [if_pos hcount, if_pos hcount]
  · rw [if_neg hcount, if_neg hcount, follow_eq, if_pos (by exact h)]
    rfl

theorem attemptSucceeded_of_sends {e : ErrorConfinement} (h : e.link.sends = true) : e.attemptSucceeded = { e with
    txErrors := e.txErrors - 1
    link := if 128 ≤ e.txErrors - 1 ∨ 128 ≤ e.rxErrors then .muted
      else if 64 ≤ e.txErrors - 1 ∨ 64 ≤ e.rxErrors then .warned else .active } := by
  have ho : e.link ≠ .offLink := by
    rintro hl
    simp [hl, LinkState.sends] at h
  rw [attemptSucceeded_eq, if_neg ho, follow_eq, if_pos (by exact h)]
  rfl

/-- R151, R160, R162, R163: what a failed attempt leaves in its slot. -/
theorem settleFailed_freed {i : Fin 4} (hx : s.txq.slots[i] = some x)
    (h : x.cleared = true ∨ 2 ≤ x.attempts ∨ newerPending i x.frame.kind s.txq.slots = true) :
    (settleFailed i s).txq = { s.txq with slots := s.txq.slots.set i none } := by
  rw [settleFailed_eq hx]
  split_ifs with hc ha
  · rfl
  · rfl
  · rw [backToPending_of_freed (.inr (by simpa [hc, show ¬2 ≤ x.attempts by omega] using h))]
    rfl

theorem settleFailed_kept {i : Fin 4} (hx : s.txq.slots[i] = some x) (hc : x.cleared = false) (ha : x.attempts < 2)
    (hn : ¬newerPending i x.frame.kind s.txq.slots = true) : (settleFailed i s).txq =
      { s.txq with
        slots := s.txq.slots.set i (some { x with attempts := x.attempts + 1, inTransmission := false }) } := by
  rw [settleFailed_eq hx, if_neg (by simp [hc]), if_neg (by omega),
    backToPending_of_kept (x := { x with attempts := x.attempts + 1 }) hc hn]
  rfl

/-- R164: the third failure counts the frame as dropped. -/
theorem settleFailed_ec {i : Fin 4} (hx : s.txq.slots[i] = some x) : (settleFailed i s).ec =
    if x.cleared = false ∧ 2 ≤ x.attempts then { s.ec with dropped := satAdd s.ec.dropped 1 } else s.ec := by
  rw [settleFailed_eq hx]
  cases hc : x.cleared
  · by_cases ha : 2 ≤ x.attempts
    · simp [ha, countDropped]
    · simp [ha]
  · simp

/-- Settles O58. -/
theorem failedAttempt : Obligations.FailedAttempt := by
  intro s now a x ha hx hsends hcount count newer flawSent
  let s1 := settleFlaw a (captureEnd a.breaking (s.setClock now))
  let s2 := settleFailed a.slot s1
  let s3 := s2.setEc (s2.ec.attemptFailed now)
  have hrun : exec (.attemptFailed now) s = .next (endAttempt (clearIfOffLink s3)) := by
    have hrun : exec (.attemptFailed now) s = execAttemptFailed now s := rfl
    rw [hrun]
    simp [execAttemptFailed, ha, s3, s2, s1]
  obtain ⟨hlink, hmarks, hreports⟩ := settleFlaw_capture (s := s.setClock now) hx
  have hx1 : s1.txq.slots[a.slot] = some x := by simpa [s1] using hx
  have hnewer : newerPending a.slot x.frame.kind s1.txq.slots = true ↔ newer := by
    rw [newerPending_iff]
    simp [s1, newer]
  have hec2 : s2.ec = { s.ec with
      dropped := if x.cleared = false ∧ 2 ≤ x.attempts then satAdd s.ec.dropped 1 else s.ec.dropped } := by
    have hec1 : s1.ec = s.ec := by simp [s1]
    rw [← hec1, show s2.ec = _ from settleFailed_ec hx1]
    split <;> rfl
  have hec3 : s3.ec = if 200 ≤ count then
        { s2.ec with txErrors := count, link := .offLink, spanBits := 0, spanAt := now, spans := 0 }
      else { s2.ec with
        txErrors := count
        link := if 128 ≤ count ∨ 128 ≤ s.ec.rxErrors then .muted
          else if 64 ≤ count ∨ 64 ≤ s.ec.rxErrors then .warned else .active } := by
    have h := attemptFailed_of_sends (e := s2.ec) (by simpa [hec2] using hsends) (by simpa [hec2] using hcount) now
    rw [show s3.ec = _ from h, hec2]
  have hoff : s3.ec.link = .offLink ↔ 200 ≤ count := by
    rw [hec3]
    split_ifs with h8 <;> simp [h8]
  have hlink3 : s3.link = { s.link with
      capture := if a.breaking then s.link.capture else now, flawArmed := s.link.flawArmed && !flawSent } := by
    have h3 : s3.link = s1.link := by simp [s3, s2]
    rw [h3, hlink]
    rfl
  let t := endAttempt (clearIfOffLink s3)
  have hec : t.ec = s3.ec := by simp [t]
  have hslots (h : count < 200) : t.txq.slots = s2.txq.slots := by
    have hn : ¬s3.ec.link = .offLink := by rw [hoff]; omega
    have hclear : clearIfOffLink s3 = s3 := if_neg hn
    simp [t, hclear, s3]
  have hrep : t.rep = s1.rep := by simp [t, s3, s2]
  refine ⟨t, hrun, ?_, ?_, ?_, ?_, fun h8 => ⟨?_, ?_, ?_, ?_⟩, ?_, fun h8 h => ?_, fun h8 hc hx2 hn => ?_, ?_, fun f => ?_, ?_, ?_, ?_⟩
  · rw [hec, hec3]; split <;> rfl
  · rw [hec, hec3]; split <;> simp [hec2]
  · rw [hec, hec3]; split <;> simp [hec2]
  · rw [hec, hec3]; split <;> rfl
  · rw [hec, hec3, if_pos h8]
  · rw [hec, hec3, if_pos h8]
  · rw [hec, hec3, if_pos h8]
  · simp [t, clearIfOffLink, hoff.mpr h8]
  · rw [hec, hec3]
    split <;> simp [hec2, satAdd]
  · rw [hslots h8, settleFailed_freed hx1 (h.imp_right (Or.imp_right hnewer.mpr))]
    simp [s1]
  · rw [hslots h8, settleFailed_kept hx1 hc hx2 (mt hnewer.mp hn)]
    simp [s1]
  · rw [hec]
    simp [t, endAttempt, hlink3]
    exact ⟨by simp [s3, s2, s1], by cases s3.ec.link <;> rfl⟩
  · rw [stickyMark_of_rep hrep, hmarks f]
    rfl
  · rw [KeepsReports, hrep]
    exact hreports
  · simp [SameStand, t, s3, s2, s1]
  · simp [SameQueue, t, s3, s2, s1]

/-- R182: a flag is cleared that the STATUS frame carried as set and whose last setting came before its offer. -/
def clearsMark (data : Vector Byte 8) (order : Nat) (f : StickyFlag) (mark : Option Mark) : Bool :=
  carriesFlag data f && mark.any fun m => decide (m.order ≤ order)

/-- One flag of `clearCarried`. -/
def clearOne (data : Vector Byte 8) (order : Nat) (s : State) (g : StickyFlag) : State :=
  if clearsMark data order g (s.stickyMark g) then s.setRep { s.rep with sticky := s.rep.sticky.set g.place none } else s

theorem clearCarried_eq_foldl (data : Vector Byte 8) (order : Nat) (s : State) :
    clearCarried data order s = StickyFlag.all.foldl (clearOne data order) s := by
  refine congrArg (fun step => List.foldl step s StickyFlag.all) (funext fun s => funext fun f => ?_)
  unfold clearOne clearsMark
  cases s.stickyMark f <;> simp

theorem cleared_stickyMark (f g : StickyFlag) (s : State) :
    (s.setRep { s.rep with sticky := s.rep.sticky.set g.place none }).stickyMark f =
      if f = g then none else s.stickyMark f := by
  simp only [State.stickyMark, setRep_rep, Fin.getElem_fin]
  rw [Vector.getElem_set]
  by_cases h : f = g
  · simp [h]
  · have : g.place.val ≠ f.place.val := fun e => h ((StickyFlag.place_inj g f).1 (Fin.ext e)).symm
    simp [h, this]

theorem clearOne_stickyMark (data : Vector Byte 8) (order : Nat) (s : State) (f g : StickyFlag) :
    (clearOne data order s g).stickyMark f =
      if f = g ∧ clearsMark data order f (s.stickyMark f) = true then none else s.stickyMark f := by
  by_cases hc : clearsMark data order g (s.stickyMark g) = true
  · rw [clearOne, if_pos hc, cleared_stickyMark]
    by_cases h : f = g
    · subst h
      rw [if_pos rfl, if_pos ⟨rfl, hc⟩]
    · rw [if_neg h, if_neg fun hh => h hh.1]
  · rw [clearOne, if_neg hc, if_neg]
    rintro ⟨rfl, hc'⟩
    exact hc hc'

theorem foldl_clearOne_stickyMark (data : Vector Byte 8) (order : Nat) (f : StickyFlag) (l : List StickyFlag) (s : State) :
    (l.foldl (clearOne data order) s).stickyMark f =
      if f ∈ l ∧ clearsMark data order f (s.stickyMark f) = true then none else s.stickyMark f := by
  induction l generalizing s with
  | nil => simp
  | cons g l ih =>
    rw [List.foldl_cons, ih, clearOne_stickyMark]
    by_cases hc : clearsMark data order f (s.stickyMark f) = true
    · by_cases hf : f = g
      · subst hf
        simp [hc]
      · simp [hc, hf]
    · simp [hc]

/-- R182: the flags that a STATUS frame sent clears. -/
theorem clearCarried_stickyMark (data : Vector Byte 8) (order : Nat) (s : State) (f : StickyFlag) :
    (clearCarried data order s).stickyMark f =
      if clearsMark data order f (s.stickyMark f) then none else s.stickyMark f := by
  have hall : f ∈ StickyFlag.all := by cases f <;> decide
  rw [clearCarried_eq_foldl, foldl_clearOne_stickyMark]
  simp [hall]

theorem clearCarried_reports (data : Vector Byte 8) (order : Nat) (s : State) : KeepsReports s (clearCarried data order s) := by
  rw [clearCarried_eq_foldl]
  generalize StickyFlag.all = l
  induction l generalizing s with
  | nil => exact ⟨rfl, rfl⟩
  | cons g l ih =>
    have hone : KeepsReports s (clearOne data order s g) := by
      unfold clearOne
      split <;> exact ⟨rfl, rfl⟩
    obtain ⟨h1, h2⟩ := ih (clearOne data order s g)
    exact ⟨h1.trans hone.1, h2.trans hone.2⟩

/-- R151, R182: a succeeded attempt frees its slot, and a STATUS frame clears the flags it carried. -/
theorem settleSucceeded_spec {i : Fin 4} (hx : s.txq.slots[i] = some x) :
    let t := settleSucceeded i s
    t.txq = { s.txq with slots := s.txq.slots.set i none } ∧ KeepsReports s t ∧
    ∀ f, t.stickyMark f = match x.frame with
      | .status data => if clearsMark data x.order f (s.stickyMark f) then none else s.stickyMark f
      | .headOn .. | .tailOff .. | .cascade .. | .alarm .. => s.stickyMark f := by
  intro t
  let u := s.setTxq { s.txq with slots := s.txq.slots.set i none }
  cases hf : x.frame with
  | status data =>
    have ht : t = clearCarried data x.order u := by
      simp only [t, settleSucceeded, hx, hf]
      rfl
    rw [ht]
    exact ⟨by simp [u], clearCarried_reports data x.order u, fun f => clearCarried_stickyMark data x.order u f⟩
  | headOn | tailOff | cascade | alarm =>
    have ht : t = u := by
      simp only [t, settleSucceeded, hx, hf]
      rfl
    rw [ht]
    exact ⟨rfl, ⟨rfl, rfl⟩, fun f => rfl⟩

/-- Settles O59. -/
theorem succeededAttempt : Obligations.SucceededAttempt := by
  intro s now a x ha hb hx hsends flagsAfter
  let s1 := settleFlaw a (captureEnd a.breaking (s.setClock now))
  let s2 := settleSucceeded a.slot s1
  let t := endAttempt (s2.setEc s2.ec.attemptSucceeded)
  have hrun : exec (.attemptSucceeded now) s = .next t := by
    have hrun : exec (.attemptSucceeded now) s = execAttemptSucceeded now s := rfl
    rw [hrun]
    simp [execAttemptSucceeded, ha, hb, t, s2, s1]
  have hdone : flawDone (s.setClock now) a x = (s.link.flawArmed && a.flawed) := by simp [flawDone, hb]
  obtain ⟨hlink, hmarks, hreports⟩ := settleFlaw_capture (s := s.setClock now) hx
  have hx1 : s1.txq.slots[a.slot] = some x := by simpa [s1] using hx
  obtain ⟨htxq, hreports2, hmarks2⟩ := settleSucceeded_spec (s := s1) hx1
  have hec : t.ec = s.ec.attemptSucceeded := by simp [t, s2, s1]
  have hrep : t.rep = s2.rep := by simp [t]
  refine ⟨t, hrun, ?_, ?_, ?_, fun f => ?_, ?_, ?_, ?_⟩
  · rw [hec, attemptSucceeded_of_sends hsends]
  · have htxq2 : t.txq = s2.txq := by simp [t]
    rw [htxq2, htxq]
    simp [s1]
  · have hlink2 : s2.link = s1.link := by simp [s2]
    have hmuted (l : LinkState) : (l == .muted) = decide (l = .muted) := by cases l <;> rfl
    have ht : t.link = { s2.link with
        attempt := none, recessive := 0, recessiveAt := s2.clock, carried := 0, idle := false
        extraWait := t.ec.link == .muted } := by simp [t, endAttempt]
    rw [ht, hlink2, hlink, hmuted, hdone, hb]
    simp [s2, s1]
    cases s.link.flawArmed <;> rfl
  · rw [stickyMark_of_rep hrep, hmarks2 f, hmarks f, hdone]
    cases hf : x.frame <;> simp only [flagsAfter, hf] <;> rfl
  · rw [KeepsReports, hrep]
    exact ⟨hreports2.1.trans hreports.1, hreports2.2.trans hreports.2⟩
  · simp [SameStand, t, s2, s1]
  · simp [SameQueue, t, s2, s1]

end Ending

end Sys2Proof.Machine
end


section
/-! PROOFS. The frames sent as their receivers read them (R142 to R145, R149, R155, R157): a receiver's scan over the marked octets, cut
off at any bit. O53 is assembled from these. -/

namespace Sys2Proof.Machine

section Scan

variable {all got suf rest : List Byte} {b : Byte} {bits : List Bool} {n : Nat}

/-- R149: of the octets read, only the whole frame has the reckoned length. -/
theorem lastOctet_iff (h : got ++ suf = all) (hlen : 2 ≤ all.length) (hr : reckonedOctets (all.getD 1 0) = all.length) :
    lastOctet got = true ↔ suf = [] := by
  have hsum : all.length = got.length + suf.length := by rw [← h, List.length_append]
  simp only [lastOctet, Bool.and_eq_true, decide_eq_true_eq, beq_iff_eq, ← List.length_eq_zero_iff]
  by_cases h2 : 2 ≤ got.length
  · have hsecond : got.getD 1 0 = all.getD 1 0 := by
      simp only [List.getD_eq_getElem?_getD, ← h, List.getElem?_append_left (show 1 < got.length by omega)]
    rw [hsecond, hr]
    omega
  · omega

theorem receiverScan_short (hn : n < 8) : receiverScan got ((octetMarked b ++ bits).take n) = none := by
  interval_cases n <;> rfl

/-- R144: what a receiver finds at the last bit of an octet. -/
theorem receiverScan_octet : receiverScan got ((octetMarked b ++ bits).take 8) =
    if lastOctet (got ++ [b]) && !checkMatches (got ++ [b]) then some .checkMismatch else none := by
  have hbits : (octetMarked b ++ bits).take 8 = byteBits b := rfl
  rw [hbits, byteBits, receiverScan, octet_of_bits]

/-- R143: an octet sent with its marker bit shows no marker error. -/
theorem receiverScan_marked : receiverScan got ((octetMarked b ++ bits).take (n + 9)) =
    if lastOctet (got ++ [b]) && !checkMatches (got ++ [b]) then some .checkMismatch
    else if lastOctet (got ++ [b]) then none else receiverScan (got ++ [b]) (bits.take n) := by
  have hbits : (octetMarked b ++ bits).take (n + 9) = b.getLsbD 7 :: b.getLsbD 6 :: b.getLsbD 5 :: b.getLsbD 4 ::
    b.getLsbD 3 :: b.getLsbD 2 :: b.getLsbD 1 :: b.getLsbD 0 :: (!b.getLsbD 0) :: bits.take n := rfl
  have hmarker : ((!b.getLsbD 0) == b.getLsbD 0) = false := by cases b.getLsbD 0 <;> rfl
  rw [hbits, receiverScan, octet_of_bits]
  simp only [hmarker, Bool.false_eq_true, if_false]

/-- R144, R149: the bits of a frame from an octet on, cut off anywhere: a wrong check word is found at the last check bit, and nothing
before it. -/
theorem receiverScan_markedBits (h : got ++ suf = all) (hlen : 2 ≤ all.length) (hr : reckonedOctets (all.getD 1 0) = all.length)
    (hs : suf ≠ []) (n : Nat) : receiverScan got ((suf.flatMap octetMarked).take n) =
      if checkMatches all = false ∧ 9 * suf.length ≤ n + 1 then some .checkMismatch else none := by
  induction suf generalizing got n with
  | nil => exact absurd rfl hs
  | cons b suf ih =>
    have happ : (got ++ [b]) ++ suf = all := by rw [← h, List.append_assoc]; rfl
    have hlast := lastOctet_iff happ hlen hr
    rw [List.flatMap_cons, List.length_cons]
    by_cases hn : n < 8
    · rw [receiverScan_short hn, if_neg (by omega)]
    by_cases hsuf : suf = []
    · have hall : got ++ [b] = all := by rw [← happ, hsuf, List.append_nil]
      have hcond : (lastOctet (got ++ [b]) && !checkMatches (got ++ [b])) = !checkMatches all := by
        rw [hlast.mpr hsuf, hall, Bool.true_and]
      have hend : checkMatches all = false ∧ 9 * (suf.length + 1) ≤ n + 1 ↔ (!checkMatches all) = true := by
        rw [hsuf, List.length_nil, Bool.not_eq_true']
        exact and_iff_left (by omega)
      simp only [hend]
      by_cases h8 : n = 8
      · rw [h8, receiverScan_octet, hcond]
      · obtain ⟨m, rfl⟩ : ∃ m, n = m + 9 := ⟨n - 9, by omega⟩
        rw [receiverScan_marked, hcond, if_pos (hlast.mpr hsuf)]
    · have hnot : lastOctet (got ++ [b]) = false := Bool.eq_false_iff.mpr (mt hlast.mp hsuf)
      have hpos : 0 < suf.length := List.length_pos_iff.mpr hsuf
      by_cases h8 : n = 8
      · rw [h8, receiverScan_octet, hnot, Bool.false_and, if_neg (by simp), if_neg fun hh => absurd hh.2 (by omega)]
      · obtain ⟨m, rfl⟩ : ∃ m, n = m + 9 := ⟨n - 9, by omega⟩
        rw [receiverScan_marked, hnot, Bool.false_and, if_neg (by simp), if_neg (by simp), ih happ hsuf m]
        simp only [show 9 * suf.length ≤ m + 1 ↔ 9 * (suf.length + 1) ≤ m + 9 + 1 by omega]

end Scan

section Frames

theorem bytesOf16_injective {x y : BitVec 16} (h : bytesOf16 x = bytesOf16 y) : x = y := by
  simp only [bytesOf16, List.cons.injEq, and_true] at h
  obtain ⟨hhigh, hlow⟩ := h
  refine BitVec.eq_of_getLsbD_eq fun i hi => ?_
  by_cases h8 : i < 8
  · have := congrArg (fun z : BitVec 8 => z.getLsbD i) hlow
    simpa [h8] using this
  · have := congrArg (fun z : BitVec 8 => z.getLsbD (i - 8)) hhigh
    simpa [show i - 8 < 8 by omega, show 8 + (i - 8) = i by omega] using this

/-- R144: the check word at the end of a frame is compared with the register over the octets before it. -/
theorem checkMatches_append (content : List Byte) (check : BitVec 16) :
    checkMatches (content ++ bytesOf16 check) = decide (crc content = check) := by
  have hlen : (content ++ bytesOf16 check).length - 2 = content.length := by simp [bytesOf16]
  rw [checkMatches, hlen, List.take_left, List.drop_left]
  by_cases h : crc content = check
  · simp [h]
  · simpa [h] using mt bytesOf16_injective h

/-- R155: the data bytes are as many as the length of the kind says. -/
theorem data_length (f : TxFrame) (age : BitVec 16) : (f.data age).length = f.kind.length.toNat := by
  cases f with
  | status data => exact data.size_toArray
  | _ => rfl

theorem content_length (f : TxFrame) (sender : BitVec 5) (age : BitVec 16) :
    (f.content sender age).length = f.kind.length.toNat + 2 := by
  simp [TxFrame.content, data_length]

theorem reckonedOctets_second (k : FrameKind) : reckonedOctets (k.code ++ k.length) = 4 + k.length.toNat := by
  cases k <;> rfl

/-- R142, R149: the whole frame has the length that its second octet gives. -/
theorem reckonedOctets_frame (f : TxFrame) (sender : BitVec 5) (age : BitVec 16) (check : BitVec 16) :
    reckonedOctets ((f.content sender age ++ bytesOf16 check).getD 1 0) = (f.content sender age ++ bytesOf16 check).length := by
  have hsecond : (f.content sender age ++ bytesOf16 check).getD 1 0 = f.kind.code ++ f.kind.length := rfl
  rw [hsecond, reckonedOctets_second, List.length_append, content_length]
  simp [bytesOf16]
  omega

/-- R144, R149: a frame sent with some check word, as a receiver reads it up to any bit. -/
theorem receiverFinds_sent (f : TxFrame) (sender : BitVec 5) (age : BitVec 16) (check : BitVec 16) (n : Nat) :
    receiverFinds ((markedBits (f.content sender age) check).take n) =
      if crc (f.content sender age) ≠ check ∧ 35 + 9 * f.kind.length.toNat ≤ n then some .checkMismatch else none := by
  have hlen : (f.content sender age ++ bytesOf16 check).length = f.kind.length.toNat + 4 := by
    rw [List.length_append, content_length]
    rfl
  have hscan := receiverScan_markedBits (List.nil_append (f.content sender age ++ bytesOf16 check)) (by omega)
    (reckonedOctets_frame f sender age check) (List.ne_nil_of_length_pos (by omega)) n
  rw [checkMatches_append, hlen] at hscan
  rw [receiverFinds, markedBits, hscan]
  simp only [ne_eq, decide_eq_false_iff_not, show 9 * (f.kind.length.toNat + 4) ≤ n + 1 ↔ 35 + 9 * f.kind.length.toNat ≤ n by omega]

theorem markedBits_length (content : List Byte) (check : BitVec 16) :
    (markedBits content check).length = 9 * (content.length + 2) := by
  have hmarked : ∀ b : Byte, (octetMarked b).length = 9 := fun _ => rfl
  simp [markedBits, List.length_flatMap, hmarked, bytesOf16]
  omega

theorem ne_complement (x : BitVec 16) : x ≠ ~~~x := by
  intro h
  have hbit := congrArg (fun y : BitVec 16 => y.getLsbD 0) h
  simp at hbit

/-- Settles O53. -/
theorem sentFramesAreSound : Obligations.SentFramesAreSound := by
  refine ⟨fun tag event age => ⟨rfl, rfl⟩, fun tag flags c speed age => ?_, fun f sender age => ?_⟩
  · have hspeed : min speed.toNat 65535 = speed.toNat := by omega
    simp [TxFrame.data, bytesOf24, bytesOf16, hspeed]
  · intro content
    refine ⟨fun n => ?_, fun n => ?_, ?_⟩
    · rw [receiverFinds_sent, if_neg (by simp [content])]
    · rw [receiverFinds_sent]
      have hne : crc (f.content sender age) ≠ ~~~crc content := ne_complement _
      by_cases hn : 35 + 9 * f.kind.length.toNat ≤ n
      · rw [if_pos ⟨hne, hn⟩, if_pos hn]
      · rw [if_neg fun h => hn h.2, if_neg hn]
    · rw [wireBits, List.length_cons, List.length_append, markedBits_length, content_length]
      simp
      omega

end Frames

end Sys2Proof.Machine
end
